-- ==== Sys2Proof/Word.lean ====
section
/-! DEFINITION. The word types of the part (00_scope.md, sections 4.1 and 4.3). -/

namespace Sys2Proof

/-- A memory word: 16 bits (00_scope.md, 4.1). -/
abbrev Word := BitVec 16

/-- A character code or a directive tag: 8 bits. -/
abbrev Byte := BitVec 8

/-- A value of the emission count E, or any quantity that names a frame: 32 bits, wrapping
(00_scope.md, 4.3). -/
abbrev Frame := BitVec 32

end Sys2Proof
end

