-- ==== Sys2Proof/Syntax.lean ====
section
/-! DEFINITION. The commands of the block: one constructor of `Instr` for each row of
spec/opcode_table.json, with the operands the event carries. -/

namespace Sys2Proof

/-- The two stenographer lanes (02_lane_records.md). -/
inductive Lane
  | a
  | b
deriving DecidableEq, Repr

/-- The three rings of the caption span (02_lane_records.md, 2.1). -/
inductive Ring
  | lane (lane : Lane)
  | directive
deriving DecidableEq, Repr

/-- Who makes an access to the memory port, as MRQ says (R178). -/
inductive Requester
  | processor
  | inserter
deriving DecidableEq, Repr

/-- Where Floor Control's step of the pass timer stands among the reactions to one frame event. -/
inductive TimerPlace
  | beforeSlew
  | beforeRelease
  | afterRelease
deriving DecidableEq, Repr

/-- DESIGN CHOICE (log 3, safe): the order in which the blocks react to one frame event, which the
spec leaves open (R7) while it gives the outcome of each order (R44, R65, R66, R141, R158).
The slew step always comes before the release pass (R44, R61). The pass-timer step stands at
`timer`. Of the cues that are due, at most `cuesFirst` fire before the first of these three
reactions, at most `cuesSecond` more before the second, at most `cuesThird` more before the third,
and all the rest after the third. The other reactions meet no state of these. -/
structure FrameOrder where
  timer : TimerPlace
  cuesFirst : Nat
  cuesSecond : Nat
  cuesThird : Nat
deriving DecidableEq, Repr

/-- The commands of the Fenjat 3160, in the order of spec/opcode_table.json. -/
inductive Instr
  /-- RESET_ASSERT (R180): RESET is driven low. -/
  | resetAssert
  /-- RESET_RELEASE (R180): RESET goes high, or power comes up, with these levels on the straps. -/
  | resetRelease (span : BitVec 5) (rate : BitVec 2)
  /-- FP_EDGE (R2, R3, R6): a rising edge on FP, `elapsed` CLK27 clocks after the moment the
  timebase stands at. -/
  | fpEdge (elapsed : Nat) (order : FrameOrder)
  /-- FREEWHEEL_DEADLINE (R4): the deadline is reached. -/
  | freewheelDeadline (order : FrameOrder)
  /-- NEXT_PULSE (R5): the next pulse is reached. -/
  | nextPulse (order : FrameOrder)
  /-- TIMECODE_WORD (R8, R185): these bits are sampled in the framing in progress, or in a new one;
  `falls` says whether TCS falls after them and so ends the framing. -/
  | timecodeWord (bits : List Bool) (falls : Bool)
  /-- SLEW_TICK (R44): the slew ticker wraps. -/
  | slewTick
  /-- RECORD_STALL (R23): the stall check of one ring's parser. -/
  | recordStall (ring : Ring)
  /-- PASS_TIMER_EXPIRY (R136): the pass timer reaches 0. -/
  | passTimerExpiry
  /-- CUE_FIRE (R157): the oldest cue that is due fires. -/
  | cueFire
  /-- RING_WRITE (R18): a processor write at word address `ma`. -/
  | ringWrite (ma : BitVec 20) (data : Word)
  /-- WORD_RECORD (R27): a WORD record commits; `chars` are its character words. -/
  | wordRecord (lane : Lane) (sentEnd attach : Bool) (length : BitVec 6) (chars : List Word)
  /-- SPEAKER_RECORD (R31): a SPEAKER record commits. -/
  | speakerRecord (lane : Lane) (sentEnd attach : Bool)
  /-- BREAK_RECORD (R31): a BREAK record commits. -/
  | breakRecord (lane : Lane) (sentEnd attach : Bool)
  /-- UNKNOWN_KIND (R25): a lane record of unknown kind commits. -/
  | unknownKind (lane : Lane) (kind : BitVec 4)
  /-- CORRECT (R103): a CORRECT record of length `n` commits. -/
  | correct (lane : Lane) (n : BitVec 6)
  /-- PASSED_WRITE (R178): a write at word address `ma`. -/
  | passedWrite (requester : Requester) (ma : BitVec 20) (data : Word)
  /-- TAKE (R120): a read of the emission window; the row's own form is the inserter and word 0. -/
  | take (requester : Requester) (word : BitVec 3)
  /-- REREAD (R122): a read of the emission window; the row's own form is the inserter and word 0. -/
  | reread (requester : Requester) (word : BitVec 3)
  /-- ATTENTION_SUMMARY_READ (R181): a read of report word 0. -/
  | attentionSummaryRead (requester : Requester)
  /-- LATCHED_LOW_READ (R182): a read of a report word; words 2, 23 and 25 load a latch. -/
  | latchedLowRead (requester : Requester) (word : BitVec 6)
  /-- CONTEXT_PORT_READ (R170): a read of the context port. -/
  | contextPortRead (requester : Requester)
  /-- RESTORE_PORT_WRITE (R171): a write to the restore port. -/
  | restorePortWrite (requester : Requester) (data : Word)
  /-- DELAY (R38). Every directive carries its tag and the parameter words that follow its header. -/
  | delay (tag : Byte) (params : List Word)
  /-- LAG (R39). -/
  | lag (tag : Byte) (params : List Word)
  /-- LEAD (R40). -/
  | lead (tag : Byte) (params : List Word)
  /-- STALE (R41). -/
  | stale (tag : Byte) (params : List Word)
  /-- SLEW (R42). -/
  | slew (tag : Byte) (params : List Word)
  /-- LAYOUT (R86). -/
  | layout (tag : Byte) (params : List Word)
  /-- CLEAR (R88). -/
  | clear (tag : Byte) (params : List Word)
  /-- HANDOFF (R133). -/
  | handoff (tag : Byte) (params : List Word)
  /-- FLUSH (R143). -/
  | flush (tag : Byte) (params : List Word)
  /-- HOLD (R163). -/
  | hold (tag : Byte) (params : List Word)
  /-- RESUME (R164). -/
  | resume (tag : Byte) (params : List Word)
  /-- SNAPSHOT (R166). -/
  | snapshot (tag : Byte) (params : List Word)
  /-- RESTORE_OPEN (R171). -/
  | restoreOpen (tag : Byte) (params : List Word)
  /-- RESTORE_ABANDON (R172). -/
  | restoreAbandon (tag : Byte) (params : List Word)
  /-- RESTORE_COMMIT (R173). -/
  | restoreCommit (tag : Byte) (params : List Word)
  /-- CUE (R154, R155). -/
  | cue (tag : Byte) (params : List Word)
  /-- UNCUE (R160). -/
  | uncue (tag : Byte) (params : List Word)
  /-- ZERO_COUNTS (R150). -/
  | zeroCounts (tag : Byte) (params : List Word)
  /-- RESTART (R151). -/
  | restart (tag : Byte) (params : List Word)
  /-- UNKNOWN_DIRECTIVE (R147): a directive record whose code names no directive commits. -/
  | unknownDirective (code : BitVec 5) (tag : Byte) (params : List Word)
deriving DecidableEq, Repr

end Sys2Proof
end

