-- ==== Sys2Proof/Config.lean ====
section
/-! DEFINITION. What the part fixes once: capacities, and the values the model names where the
spec leaves one to the card. The spec leaves no result undefined, so there is no free value here. -/

namespace Sys2Proof.Config

/-- A lane queue holds at most 48 tokens (R32). -/
abbrev laneQueueCapacity : Nat := 48

/-- The schedule holds at most 96 entries (R57). -/
abbrev scheduleCapacity : Nat := 96

/-- The cell queue holds at most 64 cells (R75). -/
abbrev cellQueueCapacity : Nat := 64

/-- The places of the cell queue that a release never fills (R63, R75). -/
abbrev cellReserve : Nat := 8

/-- A correction stack has eight places (R94). -/
abbrev stackPlaces : Nat := 8

/-- The cue table holds at most 8 cues (R153). -/
abbrev cueCapacity : Nat := 8

/-- The image buffer has 4608 words (R165). -/
abbrev imageCapacity : Nat := 4608

/-- DESIGN CHOICE (log 2, unsafe): the SPAN strap sampled for `State.reset`; any other strap is
reached by the command RESET_RELEASE. -/
abbrev resetSpan : BitVec 5 := 0

/-- DESIGN CHOICE (log 2, unsafe): the RATE strap sampled for `State.reset`. -/
abbrev resetRate : BitVec 2 := 0

/-- DESIGN CHOICE (log 10, unsafe): what an SRAM word reads as that nothing has written. -/
abbrev sramUnwritten : Word := 0

end Sys2Proof.Config
end

