-- ==== Sys2Proof/Machine/State.lean ====
section
/-! DEFINITION. The state of the Fenjat 3160: every piece of state the spec names (INVENTORY.md
lists each with its rule), the reasons a step could stop, and the state after the reset pin. -/

namespace Sys2Proof.Machine

/-! ### Timebase (01_programme_time.md) -/

/-- Timebase states (section 1.2). -/
inductive TimebaseState
  | absent
  | locked
  | freewheel
deriving DecidableEq, Repr

/-- Classes of a frame's timecode (R11, R12): NEXT, REPEAT, JUMP, INVALID, MISSING. -/
inductive TimecodeClass
  | nextFrame
  | repeatFrame
  | jump
  | invalid
  | missing
deriving DecidableEq, Repr

/-- What the Timebase block holds (sections 1.2, 1.6, 1.9). Moments are counted in CLK27 clocks
from the release of RESET. -/
structure Timebase where
  state : TimebaseState
  /-- The moment the model stands at: its own field (log 6). -/
  now : Nat
  deadline : Option Nat
  nextPulse : Option Nat
  lastInternal : Option Nat
  /-- The emission count E (R7). -/
  e : Frame
  pendingWord : Option (BitVec 32)
  /-- The bits sampled so far in a framing in progress, first bit first; none outside a framing. -/
  framing : Option (List Bool)
  /-- The current timecode frame number N. -/
  n : Nat
  known : Bool
  cls : TimecodeClass
  epoch : Byte
  /-- The slew ticker's count (R15). -/
  ticker : Nat
deriving DecidableEq, Repr

/-! ### Tokens, lanes and parsers (02_lane_records.md) -/

/-- A token's identity: its lane and serial (R30). -/
structure TokenId where
  lane : Lane
  serial : BitVec 12
deriving DecidableEq, Repr

/-- Token kinds WORD, SPEAKER and BREAK (section 2.6). -/
inductive TokenKind
  | word
  | speaker
  | paragraph
deriving DecidableEq, Repr

/-- A token (section 2.8). -/
structure Token where
  id : TokenId
  kind : TokenKind
  sentEnd : Bool
  attach : Bool
  /-- The text of a WORD; empty for the other kinds. -/
  text : List Byte
  /-- The arrival count E_a. -/
  arrival : Frame
  /-- The speech count S. -/
  speech : Frame
deriving DecidableEq, Repr

/-- A record being assembled by a parser in STAGING (section 2.2). -/
structure Staging where
  header : Word
  /-- The words received after the header, in order. -/
  body : List Word
  toCome : Nat
  startFrame : Frame
deriving DecidableEq, Repr

/-- A ring's parser: in IDLE exactly when `staging` is none (R19). -/
structure Parser where
  expected : Nat
  staging : Option Staging
deriving DecidableEq, Repr

/-- Tags of correction stack entries (R94). -/
inductive Tag
  | waiting
  | pending
  | composed
  | sending
  | shown
  | closed
  | dropped
deriving DecidableEq, Repr

/-- An entry of a correction stack (R94). -/
structure StackEntry where
  tag : Tag
  id : TokenId
deriving DecidableEq, Repr

/-- Everything held once for each lane. -/
structure LaneState where
  parser : Parser
  lagTarget : Nat
  lagEff : Nat
  /-- The lane queue, oldest token first (R32). -/
  queue : List Token
  nextSerial : BitVec 12
  /-- S_last (R46). -/
  speechLast : Option Frame
  /-- The correction stack, top entry first (R94). -/
  stack : List StackEntry
deriving DecidableEq, Repr

/-! ### Retiming (03_retiming.md) -/

/-- Slew modes (R42). -/
inductive SlewMode
  | normal
  | brisk
deriving DecidableEq, Repr

/-- What the Retiming Unit holds besides the two lags (R37, R43, R47, R53). -/
structure Retiming where
  delayTarget : Nat
  delayEff : Nat
  lead : Nat
  /-- The stale horizon H. -/
  horizon : Nat
  slewMode : SlewMode
  /-- S_tail. -/
  speechTail : Option Frame
  maxLateness : Nat
deriving DecidableEq, Repr

/-! ### Floor (08_floor_and_handoff.md) -/

/-- The four floor states (R131): FLOOR_A, FLOOR_B, PASSING_AB, PASSING_BA. -/
inductive FloorState
  | floorA
  | floorB
  | passingAB
  | passingBA
deriving DecidableEq, Repr

/-- What Floor Control holds (R131). -/
structure Floor where
  state : FloorState
  timer : Nat
deriving DecidableEq, Repr

/-! ### Row Composer (05_row_composition.md) -/

/-- The cells of R74 that can stand in the cell queue. -/
inductive Cell
  | char (code : Byte)
  | marker
  | roll
  | erase (k : Nat)
  | blank
  | placeRow (base depth : Nat)
  | placeCol (left width : Nat)
deriving DecidableEq, Repr

/-- A window layout (R72). -/
structure Layout where
  base : Nat
  depth : Nat
  left : Nat
  width : Nat
deriving DecidableEq, Repr

/-- A group record (R76). A record loaded by a restore commit carries no S and E_a (R174). -/
structure GroupRecord where
  id : TokenId
  /-- S and E_a, where the record carries them. -/
  counts : Option (Frame × Frame)
  composed : Nat
  taken : Nat
  columnsTaken : Nat
deriving DecidableEq, Repr

/-- A span of the composed row model (R79). -/
structure Span where
  id : TokenId
  start : Nat
  columns : Nat
deriving DecidableEq, Repr

/-- What the Row Composer holds (section 5.14). -/
structure Composer where
  layout : Layout
  /-- The cell queue, front first (R75). -/
  cells : List Cell
  /-- The group records in the order of their groups (R76). -/
  groups : List GroupRecord
  cursor : Nat
  /-- The span list from left to right (R79). -/
  spans : List Span
deriving DecidableEq, Repr

/-! ### Emission (07_emission.md) -/

/-- What the Emission Unit holds besides its counters (R117). -/
structure Emission where
  blockSeq : BitVec 4
  /-- The E value of the last take. -/
  take : Option Frame
  takenBlock : List Word
  /-- The held-cells mark of the current frame (R124). -/
  heldCurrent : Bool
  /-- The held-cells mark of the frame just ended. -/
  heldEnded : Bool
  carry : Bool
deriving DecidableEq, Repr

/-! ### Directives and cues (09_directives_and_cues.md) -/

/-- Outcome codes (section 9.2). -/
inductive Result
  | done
  | clamped
  | unknown
  | malformed
  | range
  | state
  | full
  | past
  | noTimecode
  | busy
  | same
  | badImage
deriving DecidableEq, Repr

/-- The last-outcome record (R148). -/
structure LastOutcome where
  tag : Byte
  code : BitVec 5
  result : Result
  stamp : Frame
deriving DecidableEq, Repr

/-- Actions of armed cues, with their arguments (R153, R154). -/
inductive CueAction
  | hold
  | resume
  | clear
  | handoff (lane wait : Word)
  | delay (d : Word)
deriving DecidableEq, Repr

/-- An armed cue (R153). -/
structure Cue where
  tag : Byte
  target : Nat
  epoch : Byte
  action : CueAction
deriving DecidableEq, Repr

/-- The counters of R150, 16 bits each. -/
structure Counters where
  discontinuities : Word
  stalled : Word
  unknownKind : Word
  empty : Word
  substituted : Word
  truncated : Word
  bunched : Word
  laneOverrun : Word
  standbyShed : Word
  trimmed : Word
  stale : Word
  lateTokens : Word
  lateCorrections : Word
  underflows : Word
  missedFrames : Word
  rereads : Word
  freewheelEntries : Word
  timecodeInvalid : Word
  timecodeMissing : Word
  timecodeJump : Word
  refused : Word
  clamped : Word
  cuesFired : Word
  cuesStale : Word
  cueActionsRefused : Word
  droppedDuringRestore : Word
deriving DecidableEq, Repr

/-! ### Hold, snapshot and restore (10_hold_snapshot_and_restore.md) -/

/-- Service states (R162). -/
inductive Service
  | run
  | held
deriving DecidableEq, Repr

/-- Image buffer states (R165). -/
inductive BufferState
  | empty
  | snapshot
  | filling
deriving DecidableEq, Repr

/-- The image buffer (R165). `words` are the words the buffer holds that can still be used: the
image in SNAPSHOT, the words collected so far in FILLING, none in EMPTY. The image length and the
fill position are its length in these two states (log 18). -/
structure ImageBuffer where
  state : BufferState
  words : List Word
  readPos : Nat
  overfilled : Bool
deriving DecidableEq, Repr

/-! ### Span Interface (11_span_signals_and_formats.md) -/

/-- The three high-word latches of the report window (R182). -/
structure Latches where
  e : Word
  headSpeech : Word
  headDue : Word
deriving DecidableEq, Repr

/-- The card's SRAM: (word address, word) pairs, addresses strictly rising, no entry equal to what
an unlisted address reads as. -/
abbrev Memory := List (Nat × Word)

/-- What the latest access put on the data lines and the SRAM strobes (R178, R179): the model's own
record of an output (log 11). -/
inductive BusOut
  /-- No access since the reset pin. -/
  | idle
  /-- A write passed to the SRAM. -/
  | passedWrite
  /-- A read passed to the SRAM, and the word it returned on MD. -/
  | passedRead (data : Word)
  /-- A read the part answered itself with this word on MD; the SRAM was not read. -/
  | answered (data : Word)
deriving DecidableEq, Repr

/-! ### The whole part -/

/-- The state of the part, and the queue of commands waiting. -/
structure State where
  /-- RESET is low (R180). -/
  resetLow : Bool
  /-- The sampled SPAN strap (R177). -/
  span : BitVec 5
  /-- The sampled RATE strap (R1). -/
  rate : BitVec 2
  attention : BitVec 8
  latches : Latches
  busOut : BusOut
  sram : Memory
  timebase : Timebase
  laneA : LaneState
  laneB : LaneState
  directiveParser : Parser
  retiming : Retiming
  schedule : List Token
  floor : Floor
  composer : Composer
  emission : Emission
  lastOutcome : LastOutcome
  /-- The armed cues in arming order, oldest first (R153). -/
  cues : List Cue
  service : Service
  image : ImageBuffer
  counters : Counters
  pending : List Instr
deriving DecidableEq, Repr

/-- Reasons the machine could stop with a fault: none. The spec gives every event an effect and
gives the part no way to stop, so no meaning raises a fault (safe: nothing is left out by one). -/
inductive Fault
deriving DecidableEq, Repr

/-- Reasons a command could be turned away by the model. -/
inductive Refusal
  /-- Raised by an arm of `exec` for a command that has no meaning yet; no arm does. Safe: the model
  stops where the part goes on. -/
  | notModelled (mnemonic : String)
deriving DecidableEq, Repr

/-! ### After the reset pin -/

/-- A parser after the reset pin (R19). -/
def Parser.reset : Parser := { expected := 0, staging := none }

/-- A lane after the reset pin (R19, R30, R35, R37, R43, R46, R113). -/
def LaneState.reset : LaneState :=
  { parser := Parser.reset, lagTarget := 0, lagEff := 0, queue := [], nextSerial := 0,
    speechLast := none, stack := [] }

/-- The Timebase after the reset pin (R2, R14, R16). -/
def Timebase.reset : Timebase :=
  { state := .absent, now := 0, deadline := none, nextPulse := none, lastInternal := none, e := 0,
    pendingWord := none, framing := none, n := 0, known := false, cls := .missing, epoch := 0,
    ticker := 0 }

/-- The Retiming Unit after the reset pin (R37, R43, R47, R53). -/
def Retiming.reset : Retiming :=
  { delayTarget := 0, delayEff := 0, lead := 3, horizon := 250, slewMode := .normal,
    speechTail := none, maxLateness := 0 }

/-- The Row Composer after the reset pin (R90). -/
def Composer.reset : Composer :=
  { layout := { base := 15, depth := 3, left := 5, width := 32 },
    cells := [.placeRow 15 3, .placeCol 5 32], groups := [], cursor := 0, spans := [] }

/-- The Emission Unit after the reset pin (R117). The taken block's words and the mark of a frame
just ended are never looked at before they are written: DESIGN CHOICE (log 14). -/
def Emission.reset : Emission :=
  { blockSeq := 0, take := none, takenBlock := List.replicate 8 0, heldCurrent := true,
    heldEnded := false, carry := false }

/-- All counters at 0 (R150). -/
def Counters.zero : Counters :=
  { discontinuities := 0, stalled := 0, unknownKind := 0, empty := 0, substituted := 0,
    truncated := 0, bunched := 0, laneOverrun := 0, standbyShed := 0, trimmed := 0, stale := 0,
    lateTokens := 0, lateCorrections := 0, underflows := 0, missedFrames := 0, rereads := 0,
    freewheelEntries := 0, timecodeInvalid := 0, timecodeMissing := 0, timecodeJump := 0,
    refused := 0, clamped := 0, cuesFired := 0, cuesStale := 0, cueActionsRefused := 0,
    droppedDuringRestore := 0 }

/-- An EMPTY image buffer (R165). -/
def ImageBuffer.clear : ImageBuffer :=
  { state := .empty, words := [], readPos := 0, overfilled := false }

/-- The part at the release of RESET with these levels on its straps (R180 and each block's own
reset rule), an unwritten SRAM and no command waiting. -/
def State.atRelease (span : BitVec 5) (rate : BitVec 2) : State :=
  { resetLow := false, span := span, rate := rate, attention := 0,
    latches := { e := 0, headSpeech := 0, headDue := 0 }, busOut := .idle, sram := [],
    timebase := Timebase.reset, laneA := LaneState.reset, laneB := LaneState.reset,
    directiveParser := Parser.reset, retiming := Retiming.reset, schedule := [],
    floor := { state := .floorA, timer := 0 }, composer := Composer.reset,
    emission := Emission.reset, lastOutcome := { tag := 0, code := 0, result := .done, stamp := 0 },
    cues := [], service := .run, image := ImageBuffer.clear, counters := Counters.zero,
    pending := [] }

/-- The part right after reset, with the straps of log 2. -/
def State.reset : State := State.atRelease Config.resetSpan Config.resetRate

end Sys2Proof.Machine
end

