-- ==== Sys2Proof/Machine/Flags.lean ====
section
/-! DEFINITION. The flags of the part: counters (R150), attention causes and ALERT (R181), and the
tags of correction stack entries (R97 to R102). -/

namespace Sys2Proof.Machine

/-! ### Counters -/

/-- The names of the counters, in the order of report words 33 to 58 (section 11.5). -/
inductive Counter
  | discontinuities
  | stalled
  | unknownKind
  | empty
  | substituted
  | truncated
  | bunched
  | laneOverrun
  | standbyShed
  | trimmed
  | stale
  | lateTokens
  | lateCorrections
  | underflows
  | missedFrames
  | rereads
  | freewheelEntries
  | timecodeInvalid
  | timecodeMissing
  | timecodeJump
  | refused
  | clamped
  | cuesFired
  | cuesStale
  | cueActionsRefused
  | droppedDuringRestore
deriving DecidableEq, Repr

/-- What a counter reads. -/
def counterValue (c : Counter) (k : Counters) : Word :=
  match c with
  | .discontinuities => k.discontinuities
  | .stalled => k.stalled
  | .unknownKind => k.unknownKind
  | .empty => k.empty
  | .substituted => k.substituted
  | .truncated => k.truncated
  | .bunched => k.bunched
  | .laneOverrun => k.laneOverrun
  | .standbyShed => k.standbyShed
  | .trimmed => k.trimmed
  | .stale => k.stale
  | .lateTokens => k.lateTokens
  | .lateCorrections => k.lateCorrections
  | .underflows => k.underflows
  | .missedFrames => k.missedFrames
  | .rereads => k.rereads
  | .freewheelEntries => k.freewheelEntries
  | .timecodeInvalid => k.timecodeInvalid
  | .timecodeMissing => k.timecodeMissing
  | .timecodeJump => k.timecodeJump
  | .refused => k.refused
  | .clamped => k.clamped
  | .cuesFired => k.cuesFired
  | .cuesStale => k.cuesStale
  | .cueActionsRefused => k.cueActionsRefused
  | .droppedDuringRestore => k.droppedDuringRestore

/-- One more, saturating at 65535 (R150). -/
def countUp (w : Word) : Word := if w = 0xFFFF then w else w + 1

/-- The counters after one occurrence of what `c` counts. -/
def bumpCounter (c : Counter) (k : Counters) : Counters :=
  match c with
  | .discontinuities => { k with discontinuities := countUp k.discontinuities }
  | .stalled => { k with stalled := countUp k.stalled }
  | .unknownKind => { k with unknownKind := countUp k.unknownKind }
  | .empty => { k with empty := countUp k.empty }
  | .substituted => { k with substituted := countUp k.substituted }
  | .truncated => { k with truncated := countUp k.truncated }
  | .bunched => { k with bunched := countUp k.bunched }
  | .laneOverrun => { k with laneOverrun := countUp k.laneOverrun }
  | .standbyShed => { k with standbyShed := countUp k.standbyShed }
  | .trimmed => { k with trimmed := countUp k.trimmed }
  | .stale => { k with stale := countUp k.stale }
  | .lateTokens => { k with lateTokens := countUp k.lateTokens }
  | .lateCorrections => { k with lateCorrections := countUp k.lateCorrections }
  | .underflows => { k with underflows := countUp k.underflows }
  | .missedFrames => { k with missedFrames := countUp k.missedFrames }
  | .rereads => { k with rereads := countUp k.rereads }
  | .freewheelEntries => { k with freewheelEntries := countUp k.freewheelEntries }
  | .timecodeInvalid => { k with timecodeInvalid := countUp k.timecodeInvalid }
  | .timecodeMissing => { k with timecodeMissing := countUp k.timecodeMissing }
  | .timecodeJump => { k with timecodeJump := countUp k.timecodeJump }
  | .refused => { k with refused := countUp k.refused }
  | .clamped => { k with clamped := countUp k.clamped }
  | .cuesFired => { k with cuesFired := countUp k.cuesFired }
  | .cuesStale => { k with cuesStale := countUp k.cuesStale }
  | .cueActionsRefused => { k with cueActionsRefused := countUp k.cueActionsRefused }
  | .droppedDuringRestore => { k with droppedDuringRestore := countUp k.droppedDuringRestore }

/-- One occurrence of what `c` counts. -/
def count (c : Counter) (s : State) : State := { s with counters := bumpCounter c s.counters }

/-- `n` occurrences of what `c` counts. -/
def countTimes (c : Counter) (n : Nat) (s : State) : State :=
  match n with
  | 0 => s
  | m + 1 => countTimes c m (count c s)

/-- One occurrence if the condition holds. -/
def countIf (c : Counter) (b : Bool) (s : State) : State := if b then count c s else s

/-! ### Attention (R181) -/

/-- The attention causes, in the order of their bits. -/
inductive Cause
  | refusedDirective
  | ringDiscontinuity
  | stalledRecord
  | laneOverrun
  | freewheelEntry
  | jump
  | badImage
  | refusedCueAction
deriving DecidableEq, Repr

/-- The attention bit of a cause. -/
def causeBit (c : Cause) : BitVec 8 :=
  match c with
  | .refusedDirective => 0x01
  | .ringDiscontinuity => 0x02
  | .stalledRecord => 0x04
  | .laneOverrun => 0x08
  | .freewheelEntry => 0x10
  | .jump => 0x20
  | .badImage => 0x40
  | .refusedCueAction => 0x80

/-- Raising a cause sets its bit (R181). -/
def raise (c : Cause) (s : State) : State := { s with attention := s.attention ||| causeBit c }

/-- ALERT is driven low while an attention bit is set (R181), and is released while RESET is low
(R180). -/
def alertLow (s : State) : Bool := !s.resetLow && s.attention != 0

/-! ### Tags (R97 to R102) -/

/-- An admitted notice (R98). -/
def tagAdmitted (t : Tag) : Tag :=
  match t with
  | .waiting => .pending
  | other => other

/-- A discarded notice (R98). -/
def tagDiscarded (t : Tag) : Tag :=
  match t with
  | .waiting => .dropped
  | .pending => .dropped
  | other => other

/-- A released notice that reports this many group cells (R99). -/
def tagReleased (cells : Nat) (t : Tag) : Tag :=
  match t with
  | .pending => if cells = 0 then .dropped else .composed
  | other => other

/-- A first-cell-taken notice (R100). -/
def tagFirstTaken (t : Tag) : Tag :=
  match t with
  | .composed => .sending
  | other => other

/-- A last-cell-taken notice (R100). -/
def tagLastTaken (t : Tag) : Tag :=
  match t with
  | .sending => .shown
  | other => other

/-- A closed notice (R101). -/
def tagClosed (t : Tag) : Tag :=
  match t with
  | .composed => .closed
  | .sending => .closed
  | .shown => .closed
  | other => other

/-- A group-removed notice, with whether any cell had been taken (R102). -/
def tagGroupRemoved (anyTaken : Bool) (t : Tag) : Tag :=
  match t, anyTaken with
  | .composed, false => .dropped
  | .sending, true => .closed
  | .closed, false => .dropped
  | other, _ => other

end Sys2Proof.Machine
end

