-- ==== Sys2Proof/Machine/Operands.lean ====
section
/-! DEFINITION. How the words of records are read, and how frames are compared: the modular
comparisons of 00_scope.md 4.3, and the word layouts of 11_span_signals_and_formats.md. -/

namespace Sys2Proof.Machine

/-! ### Modular comparison of frames (00_scope.md 4.3, R54) -/

/-- `a` precedes `b`: (b - a) mod 2^32 lies in 1 to 2^31 - 1. -/
def precedes (a b : Frame) : Bool := 1 ≤ (b - a).toNat && (b - a).toNat ≤ 2147483647

/-- `a` is at or after `b`: (a - b) mod 2^32 is less than 2^31. -/
def atOrAfter (a b : Frame) : Bool := (a - b).toNat < 2147483648

/-- `a` is after `b`: `b` precedes `a`. -/
def isAfter (a b : Frame) : Bool := precedes b a

/-- The difference a - b as a signed 32-bit value. -/
def frameDiff (a b : Frame) : Int := (a - b).toInt

/-- A frame count as an amount to add to an E value. -/
def frames (n : Nat) : Frame := BitVec.ofNat 32 n

/-! ### Words -/

/-- The low half of a two-word value. -/
def lowWord (f : Frame) : Word := f.extractLsb' 0 16

/-- The high half of a two-word value. -/
def highWord (f : Frame) : Word := f.extractLsb' 16 16

/-- The E value of two words, low word first (R186). -/
def frameOfWords (low high : Word) : Frame := high ++ low

/-- A number as a word. -/
def wordOf (n : Nat) : Word := BitVec.ofNat 16 n

/-- The character in the high byte of a word. -/
def highByte (w : Word) : Byte := w.extractLsb' 8 8

/-- The character in the low byte of a word. -/
def lowByte (w : Word) : Byte := w.extractLsb' 0 8

/-- Two bytes as a word, the first in the high byte (00_scope.md 4.1). -/
def wordOfBytes (high low : Byte) : Word := high ++ low

/-- A bit field of a word as a number. -/
def field (w : Word) (low len : Nat) : Nat := (w.extractLsb' low len).toNat

/-- The sum of words modulo 65536 (R119, R169). -/
def wordSum (ws : List Word) : Word := ws.foldl (· + ·) 0

/-- The check word of a block or image: it makes the sum 0 modulo 65536 (R119, R169). -/
def checkWord (ws : List Word) : Word := -(wordSum ws)

/-! ### Characters (00_scope.md 4.5, R27) -/

/-- The accepted set: 0x20 to 0x7E and 0xA0 to 0xFF. -/
def accepted (code : Byte) : Bool :=
  (0x20 ≤ code.toNat && code.toNat ≤ 0x7E) || 0xA0 ≤ code.toNat

/-- The blot character. -/
def blot : Byte := 0x7F

/-- A code, with the blot in place of one outside the accepted set. -/
def substitute (code : Byte) : Byte := if accepted code then code else blot

/-- Character number `i` of character words, two to a word, the first in the high byte. A word that
is not there reads as 0 (log 17). -/
def charAt (words : List Word) (i : Nat) : Byte :=
  let w := words.getD (i / 2) 0
  if i % 2 = 0 then highByte w else lowByte w

/-- The first `n` characters of character words. -/
def charsOf (words : List Word) (n : Nat) : List Byte := (List.range n).map (charAt words)

/-! ### Lane record headers (R183) -/

/-- The kind field of a lane header. -/
def laneKind (header : Word) : BitVec 4 := header.extractLsb' 12 4

/-- The SENT_END flag of a lane header. -/
def laneSentEnd (header : Word) : Bool := header.getLsbD 11

/-- The ATTACH flag of a lane header. -/
def laneAttach (header : Word) : Bool := header.getLsbD 10

/-- The length field of a lane header. -/
def laneLength (header : Word) : BitVec 6 := header.extractLsb' 0 6

/-! ### Directive record headers (R183) -/

/-- The code field of a directive header. -/
def directiveCode (header : Word) : BitVec 5 := header.extractLsb' 11 5

/-- The parameter count of a directive header. -/
def directiveCount (header : Word) : BitVec 3 := header.extractLsb' 8 3

/-- The tag of a directive header. -/
def directiveTag (header : Word) : Byte := header.extractLsb' 0 8

/-- How many words follow a header of this ring (R20). -/
def wordsFollowing (ring : Ring) (header : Word) : Nat :=
  match ring with
  | .lane _ => if laneKind header = 1 then ((laneLength header).toNat + 1) / 2 else 0
  | .directive => (directiveCount header).toNat

/-- How many words a ring has (section 2.1). -/
def ringSize (ring : Ring) : Nat :=
  match ring with
  | .lane _ => 4096
  | .directive => 1024

/-- A lane number of a directive: 0 names lane A and 1 lane B (R39, R133, R143). -/
def laneOfWord (w : Word) : Option Lane :=
  if w = 0 then some .a else if w = 1 then some .b else none

/-! ### Cell words (R184) -/

/-- The word of a cell. -/
def cellWord (c : Cell) : Word :=
  match c with
  | .char code => wordOf (0x1000 + code.toNat)
  | .marker => 0x2000
  | .roll => 0x3000
  | .erase k => wordOf (0x4000 + k)
  | .blank => 0x5000
  | .placeRow base depth => wordOf (0x6000 + 16 * base + depth)
  | .placeCol left width => wordOf (0x7000 + 64 * left + width)

/-- The NULL word that pads an emission block. -/
def nullWord : Word := 0x0000

/-- The ERASE cell a word spells: k from 1 to 40. -/
def eraseOfWord (w : Word) : Option Cell :=
  let k := field w 0 6
  if 1 ≤ k ∧ k ≤ 40 ∧ w = cellWord (.erase k) then some (.erase k) else none

/-- The PLACE_ROW cell a word spells: base 1 to 15, depth 2 to 4. -/
def placeRowOfWord (w : Word) : Option Cell :=
  let base := field w 4 4
  let depth := field w 0 3
  if 1 ≤ base ∧ 2 ≤ depth ∧ depth ≤ 4 ∧ w = cellWord (.placeRow base depth)
  then some (.placeRow base depth) else none

/-- The PLACE_COL cell a word spells: left 0 to 26, width 16 to 40. -/
def placeColOfWord (w : Word) : Option Cell :=
  let left := field w 6 5
  let width := field w 0 6
  if left ≤ 26 ∧ 16 ≤ width ∧ width ≤ 40 ∧ w = cellWord (.placeCol left width)
  then some (.placeCol left width) else none

/-- The queue cell a word spells, every field in range and every other bit 0; none for NULL and for
any other word (R184). A character code outside the accepted set is read as the blot. -/
def cellOfWord (w : Word) : Option Cell :=
  match field w 12 4 with
  | 1 => if field w 8 4 = 0 then some (.char (substitute (lowByte w))) else none
  | 2 => if w = 0x2000 then some .marker else none
  | 3 => if w = 0x3000 then some .roll else none
  | 4 => eraseOfWord w
  | 5 => if w = 0x5000 then some .blank else none
  | 6 => placeRowOfWord w
  | 7 => placeColOfWord w
  | _ => none

/-- Character cells and MARKER belong to a token's group (section 5.2). -/
def isGroupCell (c : Cell) : Bool :=
  match c with
  | .char _ => true
  | .marker => true
  | _ => false

/-- The columns a group cell counts: 2 for a MARKER and 1 for a character (R76). -/
def cellColumns (c : Cell) : Nat :=
  match c with
  | .char _ => 1
  | .marker => 2
  | _ => 0

/-! ### Layouts (R73) -/

/-- A layout is valid. -/
def layoutValid (l : Layout) : Bool :=
  1 ≤ l.base && l.base ≤ 15 && 2 ≤ l.depth && l.depth ≤ 4 && l.left ≤ 26 &&
    16 ≤ l.width && l.width ≤ 40 && l.depth ≤ l.base && l.left + l.width ≤ 42

/-- The PLACE pair of a layout (R87). -/
def placePair (l : Layout) : List Cell := [.placeRow l.base l.depth, .placeCol l.left l.width]

/-! ### Identity words (R186) -/

/-- The bit that names a lane in an identity word. -/
def laneBit (lane : Lane) : BitVec 1 :=
  match lane with
  | .a => 0
  | .b => 1

/-- The identity word of a token, with a 3-bit number above it (0 but in a stack entry). -/
def identityWord (top : BitVec 3) (id : TokenId) : Word := top ++ laneBit id.lane ++ id.serial

/-- The identity that a word names. -/
def idOfWord (w : Word) : TokenId :=
  { lane := if w.getLsbD 12 then .b else .a, serial := w.extractLsb' 0 12 }

end Sys2Proof.Machine
end

