-- ==== Sys2Proof/Machine/Ops.lean ====
section
/-! DEFINITION. Named operations over the state that the blocks share: the SRAM, lanes and parsers,
notices to the Correction Stacks, the tail of the cell queue, frame arithmetic of a token. -/

namespace Sys2Proof.Machine

/-! ### The card's SRAM (R179, log 10) -/

/-- What the SRAM returns at a word address. -/
def Memory.read (m : Memory) (a : Nat) : Word :=
  match m with
  | [] => Config.sramUnwritten
  | (b, w) :: rest => if a = b then w else Memory.read rest a

/-- The memory with one word put in its place, whatever the word. -/
def Memory.insert (m : Memory) (a : Nat) (w : Word) : Memory :=
  match m with
  | [] => [(a, w)]
  | (b, v) :: rest =>
    if a < b then (a, w) :: (b, v) :: rest
    else if a = b then (a, w) :: rest
    else (b, v) :: Memory.insert rest a w

/-- The memory with one address unlisted. -/
def Memory.erase (m : Memory) (a : Nat) : Memory :=
  match m with
  | [] => []
  | (b, v) :: rest => if a = b then rest else (b, v) :: Memory.erase rest a

/-- A write, keeping the canonical form. -/
def Memory.write (m : Memory) (a : Nat) (w : Word) : Memory :=
  if w = Config.sramUnwritten then Memory.erase m a else Memory.insert m a w

/-- An address is above a bound, if there is one. -/
def Memory.above (lo : Option Nat) (a : Nat) : Bool :=
  match lo with
  | none => true
  | some l => decide (l < a)

/-- Every address of the memory is above `lo`, they rise strictly, and no entry equals what an
unlisted address reads as. -/
def Memory.wfAbove (lo : Option Nat) (m : Memory) : Bool :=
  match m with
  | [] => true
  | (a, w) :: rest =>
    Memory.above lo a && w != Config.sramUnwritten && Memory.wfAbove (some a) rest

/-- The canonical form. -/
def Memory.wf (m : Memory) : Bool := Memory.wfAbove none m

/-! ### Lanes and parsers -/

/-- The other lane. -/
def otherLane (x : Lane) : Lane :=
  match x with
  | .a => .b
  | .b => .a

/-- What the part holds for a lane. -/
def laneOf (x : Lane) (s : State) : LaneState :=
  match x with
  | .a => s.laneA
  | .b => s.laneB

/-- The state with a lane's part replaced. -/
def setLane (x : Lane) (l : LaneState) (s : State) : State :=
  match x with
  | .a => { s with laneA := l }
  | .b => { s with laneB := l }

/-- The state with a lane queue replaced. -/
def setQueue (x : Lane) (q : List Token) (s : State) : State :=
  setLane x { laneOf x s with queue := q } s

/-- The state with a correction stack replaced. -/
def setStack (x : Lane) (st : List StackEntry) (s : State) : State :=
  setLane x { laneOf x s with stack := st } s

/-- A ring's parser. -/
def parserOf (r : Ring) (s : State) : Parser :=
  match r with
  | .lane x => (laneOf x s).parser
  | .directive => s.directiveParser

/-- The state with a ring's parser replaced. -/
def setParser (r : Ring) (p : Parser) (s : State) : State :=
  match r with
  | .lane x => setLane x { laneOf x s with parser := p } s
  | .directive => { s with directiveParser := p }

/-- The floor lane of a floor state (R131). -/
def floorLane (f : FloorState) : Lane :=
  match f with
  | .floorA => .a
  | .floorB => .b
  | .passingAB => .a
  | .passingBA => .b

/-- The pass target of a floor state, while a pass is in progress (R131). -/
def passTarget (f : FloorState) : Option Lane :=
  match f with
  | .floorA => none
  | .floorB => none
  | .passingAB => some .b
  | .passingBA => some .a

/-- FLOOR_X for a lane X. -/
def floorOf (x : Lane) : FloorState :=
  match x with
  | .a => .floorA
  | .b => .floorB

/-- PASSING_XY for a floor lane X. -/
def passingFrom (x : Lane) : FloorState :=
  match x with
  | .a => .passingAB
  | .b => .passingBA

/-! ### Notices to the Correction Stacks (R97) -/

/-- A stack with the tag of the named entry changed. -/
def retag (id : TokenId) (f : Tag → Tag) (st : List StackEntry) : List StackEntry :=
  st.map fun en => if en.id = id then { en with tag := f en.tag } else en

/-- A notice about a token: its entry on its own lane's stack, if there is one, changes tag. -/
def notice (id : TokenId) (f : Tag → Tag) (s : State) : State :=
  setStack id.lane (retag id f (laneOf id.lane s).stack) s

/-- A discarded notice for each of these tokens, in order. -/
def noticeDiscarded (ts : List Token) (s : State) : State :=
  match ts with
  | [] => s
  | t :: rest => noticeDiscarded rest (notice t.id tagDiscarded s)

/-! ### The cell queue and the row model -/

/-- Free places of the cell queue (R75). -/
def freePlaces (c : Composer) : Nat := Config.cellQueueCapacity - c.cells.length

/-- Cells join the tail of the cell queue; a cell left there sets the frame's held-cells mark
(R75, R124). -/
def appendCells (cs : List Cell) (s : State) : State :=
  let cells := s.composer.cells ++ cs
  { s with
    composer := { s.composer with cells := cells }
    emission := { s.emission with heldCurrent := s.emission.heldCurrent || !cells.isEmpty } }

/-- A closed notice for each of these spans, from left to right (R79). -/
def noticeClosed (sps : List Span) (s : State) : State :=
  match sps with
  | [] => s
  | sp :: rest => noticeClosed rest (notice sp.id tagClosed s)

/-- Every span is closed, the span list empties and the cursor becomes 0 (R81, R86, R88). -/
def closeRow (s : State) : State :=
  let s := noticeClosed s.composer.spans s
  { s with composer := { s.composer with spans := [], cursor := 0 } }

/-! ### Frame arithmetic of a token (03_retiming.md) -/

/-- The due frame of S and E_a, with the D_eff and lead in force (R48). -/
def dueFrame (r : Retiming) (speech arrival : Frame) : Frame :=
  let due := speech + frames r.delayEff + frames r.lead
  let floor := arrival + 1
  if precedes due floor then floor else due

/-- The due frame of a token. -/
def tokenDue (t : Token) (s : State) : Frame := dueFrame s.retiming t.speech t.arrival

/-- The character count c of R49. -/
def sendCharacters (t : Token) : Nat :=
  match t.kind with
  | .word => t.text.length
  | .speaker => 2
  | .paragraph => 0

/-- The send span k: (c + 1) / 6 rounded up (R49). -/
def sendSpan (t : Token) : Nat := (sendCharacters t + 6) / 6

/-- The token is ripe at the current E (R50). -/
def ripe (t : Token) (s : State) : Bool :=
  atOrAfter s.timebase.e (tokenDue t s - frames (sendSpan t) + 1)

/-- The token is stale at the current E (R51). -/
def staleNow (t : Token) (s : State) : Bool :=
  decide ((s.retiming.horizon : Int) < frameDiff s.timebase.e (tokenDue t s))

end Sys2Proof.Machine
end

