-- ==== Sys2Proof/Machine/Composer.lean ====
section
/-! DEFINITION. The Row Composer: composing a released token (R80 to R85), the PLACE pair (R87),
LAYOUT (R86), CLEAR (R88), and the removal of untaken cells (R107). -/

namespace Sys2Proof.Machine

/-! ### Composing a released token -/

/-- The characters a WORD's release sends: its text cut to the window width (R80, R83). -/
def releasedText (t : Token) (c : Composer) : List Byte := t.text.take c.layout.width

/-- A WORD needs a space ahead of it: the cursor is above 0 and it is not ATTACH (R80). -/
def needsSpace (t : Token) (c : Composer) : Bool := decide (0 < c.cursor) && !t.attach

/-- A release needs a ROLL first (R80). -/
def needsRoll (t : Token) (c : Composer) : Bool :=
  match t.kind with
  | .word =>
    decide (c.layout.width < c.cursor + (needsSpace t c).toNat + (releasedText t c).length)
  | .speaker => decide (0 < c.cursor)
  | .paragraph => decide (0 < c.cursor)

/-- The group cells a release composes, once any ROLL stands ahead of them (R82, R84, R85). -/
def groupCells (t : Token) (c : Composer) : List Cell :=
  match t.kind with
  | .word =>
    (if needsSpace t c && !needsRoll t c then [Cell.char 0x20] else []) ++
      (releasedText t c).map Cell.char
  | .speaker => [.marker]
  | .paragraph => []

/-- g, the number of cells a release needs: any ROLL and the group cells (R80). -/
def cellsNeeded (t : Token) (c : Composer) : Nat :=
  (needsRoll t c).toNat + (groupCells t c).length

/-- The columns of group cells. -/
def columnsOf (cs : List Cell) : Nat := (cs.map cellColumns).sum

/-- A ROLL is composed (R81). -/
def composeRoll (s : State) : State := closeRow (appendCells [.roll] s)

/-- A token's group is composed at the cursor: its cells, its group record and its span (R82, R84).
A token with no group cells leaves everything as it is (R85). -/
def composeGroup (t : Token) (cs : List Cell) (s : State) : State :=
  if cs.isEmpty then s
  else
    let s := appendCells cs s
    let c := s.composer
    { s with composer := { c with
        groups := c.groups ++ [{ id := t.id, counts := some (t.speech, t.arrival),
                                 composed := cs.length, taken := 0, columnsTaken := 0 }]
        spans := c.spans ++ [{ id := t.id, start := c.cursor, columns := columnsOf cs }]
        cursor := c.cursor + columnsOf cs } }

/-- The composition of a released token (R82, R84, R85): the cut is counted, any ROLL is composed,
then the group. -/
def composeToken (t : Token) (s : State) : State :=
  let cs := groupCells t s.composer
  let roll := needsRoll t s.composer
  let cut := t.kind = .word ∧ s.composer.layout.width < t.text.length
  let s := countIf .truncated (decide cut) s
  composeGroup t cs (if roll then composeRoll s else s)

/-! ### LAYOUT -/

/-- LAYOUT (R86). -/
def layoutDirective (base depth left width : Word) (s : State) : State × Result :=
  let l : Layout :=
    { base := base.toNat, depth := depth.toNat, left := left.toNat, width := width.toNat }
  if !layoutValid l then (s, .range)
  else if freePlaces s.composer < 2 then (s, .full)
  else
    let s := closeRow s
    let s := { s with composer := { s.composer with layout := l } }
    (appendCells (placePair l) s, .done)

/-! ### CLEAR -/

/-- A group-removed notice for each of these group records, in order (R88, R102). -/
def noticeRemoved (gs : List GroupRecord) (s : State) : State :=
  match gs with
  | [] => s
  | g :: rest => noticeRemoved rest (notice g.id (tagGroupRemoved (decide (0 < g.taken))) s)

/-- A PLACE_COL cell. -/
def isPlaceCol (c : Cell) : Bool :=
  match c with
  | .placeCol _ _ => true
  | _ => false

/-- A PLACE_ROW cell. -/
def isPlaceRow (c : Cell) : Bool :=
  match c with
  | .placeRow _ _ => true
  | _ => false

/-- What is kept, given the queue read from its tail: the first PLACE_COL met, with the cell directly
ahead of it in the queue when that is a PLACE_ROW. -/
def lastPlaceOf (fromTail : List Cell) : List Cell :=
  match fromTail with
  | [] => []
  | c :: rest =>
    if isPlaceCol c then
      match rest with
      | [] => [c]
      | d :: _ => if isPlaceRow d then [d, c] else [c]
    else lastPlaceOf rest

/-- The PLACE cells a CLEAR keeps (R88, step 2): the last PLACE_COL, and the cell directly ahead of
it when that is a PLACE_ROW. -/
def keptPlace (cs : List Cell) : List Cell := lastPlaceOf cs.reverse

/-- CLEAR (R88). -/
def clearWindow (s : State) : State :=
  let s := noticeRemoved s.composer.groups s
  let c := s.composer
  let kept := keptPlace (c.cells.filter fun x => !isGroupCell x)
  let s := { s with composer := { c with cells := kept, groups := [] } }
  appendCells [.blank] (closeRow s)

/-! ### Removing untaken cells of a group (R107) -/

/-- The queue without `drop` group cells that stand behind the first `skip` group cells. -/
def dropGroupCells (skip drop : Nat) (cs : List Cell) : List Cell :=
  match cs with
  | [] => []
  | c :: rest =>
    if isGroupCell c then
      match skip, drop with
      | k + 1, d => c :: dropGroupCells k d rest
      | 0, 0 => c :: rest
      | 0, d + 1 => dropGroupCells 0 d rest
    else c :: dropGroupCells skip drop rest

/-- Untaken cells of a group. -/
def untaken (g : GroupRecord) : Nat := g.composed - g.taken

/-- Untaken cells of the groups ahead of the one named. -/
def untakenAhead (id : TokenId) (gs : List GroupRecord) : Nat :=
  match gs with
  | [] => 0
  | g :: rest => if g.id = id then 0 else untaken g + untakenAhead id rest

/-- The group record of a token, if there is one. -/
def groupOf (id : TokenId) (gs : List GroupRecord) : Option GroupRecord :=
  gs.find? fun g => g.id = id

/-- The untaken cells of a token's group leave the cell queue, and its group record is removed
(R107, step 1). -/
def removeGroup (id : TokenId) (c : Composer) : Composer :=
  match groupOf id c.groups with
  | none => c
  | some g =>
    { c with
      cells := dropGroupCells (untakenAhead id c.groups) (untaken g) c.cells
      groups := c.groups.filter fun h => h.id ≠ id }

/-- The columns of a token's taken cells (R108): those of its group record, or all of its span's
when no group record is left. -/
def takenColumns (sp : Span) (c : Composer) : Nat :=
  match groupOf sp.id c.groups with
  | none => sp.columns
  | some g => g.columnsTaken

/-- The token of the last span is undone (R107, R78). -/
def undoLast (sp : Span) (s : State) : State :=
  let k := takenColumns sp s.composer
  let s := { s with composer := removeGroup sp.id s.composer }
  let s := if k = 0 then s else appendCells [.erase k] s
  { s with composer := { s.composer with
      cursor := s.composer.cursor - sp.columns
      spans := s.composer.spans.dropLast } }

end Sys2Proof.Machine
end

