-- ==== Sys2Proof/Machine/Floor.lean ====
section
/-! DEFINITION. Floor Control and admission: completing a pass (R138, R139), admitting tokens to the
schedule (R58, R59), the pass timer (R136), HANDOFF (R133 to R135) and FLUSH (R143). -/

namespace Sys2Proof.Machine

/-! ### Completing a pass -/

/-- A token of the incoming lane stays after the overlap trim: S_tail is unset, or its S is after
S_tail (R139). -/
def survivesTrim (tail : Option Frame) (t : Token) : Bool :=
  match tail with
  | none => true
  | some st => isAfter t.speech st

/-- These tokens are discarded with a notice each, and each is counted as trimmed (R138). -/
def trimTokens (ts : List Token) (s : State) : State :=
  countTimes .trimmed ts.length (noticeDiscarded ts s)

/-- Steps 1 to 3 of R138: the pass from the floor lane `x` completes. -/
def completePass (x : Lane) (s : State) : State :=
  let y := otherLane x
  let s := setQueue x [] (trimTokens (laneOf x s).queue s)
  let tail := s.retiming.speechTail
  let old := (laneOf y s).queue
  let s := trimTokens (old.filter fun t => !survivesTrim tail t) s
  let s := setQueue y (old.filter (survivesTrim tail)) s
  { s with floor := { state := floorOf y, timer := 0 } }

/-- What a SENT_END notice does (R137): an admitted token of the floor lane completes a pass in
progress. -/
def sentEndAdmitted (x : Lane) (s : State) : State :=
  if passTarget s.floor.state ≠ none ∧ floorLane s.floor.state = x then completePass x s else s

/-! ### Admission -/

/-- An admitted token's S after the clamp against S_tail (R59, step 2). -/
def clampSpeech (limit : Option Frame) (speech : Frame) : Frame :=
  match limit with
  | none => speech
  | some l => if precedes speech l then l else speech

/-- The clamp changes the speech count, and so is counted as bunched (R45, R59). -/
def bunches (limit : Option Frame) (speech : Frame) : Bool :=
  match limit with
  | none => false
  | some l => precedes speech l

/-- The admission of `t`, the head of lane `x`'s queue, with `rest` behind it (R59). -/
def admitToken (x : Lane) (t : Token) (rest : List Token) (s : State) : State :=
  let s := setQueue x rest s
  let tail := s.retiming.speechTail
  let s := countIf .bunched (bunches tail t.speech) s
  let speech := clampSpeech tail t.speech
  let s := { s with
    retiming := { s.retiming with speechTail := some speech }
    schedule := s.schedule ++ [{ t with speech := speech }] }
  let s := notice t.id tagAdmitted s
  if t.sentEnd then sentEndAdmitted t.id.lane s else s

/-- The admission run of R58, for at most `fuel` admissions. -/
def admitUpTo (fuel : Nat) (s : State) : State :=
  match fuel with
  | 0 => s
  | n + 1 =>
    if Config.scheduleCapacity ≤ s.schedule.length then s
    else
      let x := floorLane s.floor.state
      match (laneOf x s).queue with
      | [] => s
      | t :: rest => admitUpTo n (admitToken x t rest s)

/-- The tokens waiting in the two lane queues: no run admits more. -/
def queuedTokens (s : State) : Nat := s.laneA.queue.length + s.laneB.queue.length

/-- An admission run (R58). -/
def admissionRun (s : State) : State := admitUpTo (queuedTokens s) s

/-! ### Passes and flushes -/

/-- A pass completes, with the admission run of step 4 of R138. -/
def completePassAndAdmit (x : Lane) (s : State) : State := admissionRun (completePass x s)

/-- Floor Control's reaction to a frame event (R136). -/
def passTimerStep (s : State) : State :=
  match passTarget s.floor.state with
  | none => s
  | some _ =>
    let timer := s.floor.timer - 1
    if timer = 0 then completePassAndAdmit (floorLane s.floor.state) s
    else { s with floor := { s.floor with timer := timer } }

/-- A pass from `x` starts with this wait; a wait of 0 completes at once (R134). -/
def startPass (x : Lane) (wait : Nat) (s : State) : State :=
  let s := { s with floor := { state := passingFrom x, timer := wait } }
  if wait = 0 then completePassAndAdmit x s else s

/-- HANDOFF, by directive or cue action (R133). -/
def handoff (lane wait : Word) (s : State) : State × Result :=
  match laneOfWord lane with
  | none => (s, .range)
  | some named =>
    let x := floorLane s.floor.state
    match passTarget s.floor.state with
    | some _ =>
      if named = x then ({ s with floor := { state := floorOf x, timer := 0 } }, .done)
      else (s, .busy)
    | none =>
      if named = x then (s, .same)
      else if wait.toNat ≤ 250 then (startPass x wait.toNat s, .done)
      else (startPass x 250 s, .clamped)

/-- FLUSH of a lane (R143): its queue, then its schedule entries (R68), then S_last, then an
admission run. -/
def flushLane (x : Lane) (s : State) : State :=
  let s := setQueue x [] (noticeDiscarded (laneOf x s).queue s)
  let mine := s.schedule.filter fun t => t.id.lane = x
  let s := noticeDiscarded mine { s with schedule := s.schedule.filter fun t => t.id.lane ≠ x }
  admissionRun (setLane x { laneOf x s with speechLast := none } s)

/-- FLUSH by directive. -/
def flush (lane : Word) (s : State) : State × Result :=
  match laneOfWord lane with
  | none => (s, .range)
  | some x => (flushLane x s, .done)

end Sys2Proof.Machine
end

