-- ==== Sys2Proof/Machine/Schedule.lean ====
section
/-! DEFINITION. The Schedule's release pass (R61 to R65) and the creation of tokens in the lane
queues (R30 to R34, R45, R95). -/

namespace Sys2Proof.Machine

/-! ### The release pass -/

/-- The stale head `t` is discarded, with `rest` behind it (R62). -/
def discardHead (t : Token) (rest : List Token) (s : State) : State :=
  let s := count .stale { s with schedule := rest }
  admissionRun (notice t.id tagDiscarded s)

/-- The head `t` is released, with `rest` behind it (R63). -/
def releaseHead (t : Token) (rest : List Token) (s : State) : State :=
  let cells := (groupCells t s.composer).length
  let s := composeToken t { s with schedule := rest }
  admissionRun (notice t.id (tagReleased cells) s)

/-- The head's group fits in the cell queue with the reserve (R63). -/
def groupFits (t : Token) (s : State) : Bool :=
  decide (cellsNeeded t s.composer + Config.cellReserve ≤ freePlaces s.composer)

/-- The release pass of R61, for at most `fuel` heads. -/
def releaseUpTo (fuel : Nat) (s : State) : State :=
  match fuel with
  | 0 => s
  | n + 1 =>
    match s.schedule with
    | [] => s
    | t :: rest =>
      if staleNow t s then releaseUpTo n (discardHead t rest s)
      else if !ripe t s then s
      else if groupFits t s then releaseUpTo n (releaseHead t rest s)
      else s

/-- The release pass of a frame event: none in HELD (R61, R65). No pass takes away more heads than
there are tokens in the schedule and the lane queues. -/
def releasePass (s : State) : State :=
  match s.service with
  | .held => s
  | .run => releaseUpTo (s.schedule.length + queuedTokens s) s

/-! ### Creating a token -/

/-- The serials of a lane that are held (R30). -/
def heldSerials (x : Lane) (s : State) : List (BitVec 12) :=
  let ids := (laneOf x s).queue.map (·.id) ++ s.schedule.map (·.id) ++
    s.composer.groups.map (·.id) ++ s.composer.spans.map (·.id) ++ (laneOf x s).stack.map (·.id)
  (ids.filter fun i => i.lane = x).map (·.serial)

/-- The first serial not held, counting up from `n` with wrap, looking at most `fuel` times. -/
def freeSerial (held : List (BitVec 12)) (fuel : Nat) (n : BitVec 12) : BitVec 12 :=
  match fuel with
  | 0 => n
  | k + 1 => if n ∈ held then freeSerial held k (n + 1) else n

/-- The serial the lane's next token receives (R30). -/
def serialFor (x : Lane) (s : State) : BitVec 12 :=
  let held := heldSerials x s
  freeSerial held held.length (laneOf x s).nextSerial

/-- The oldest token of a standby lane is shed (R34). -/
def shedHead (x : Lane) (s : State) : State :=
  match (laneOf x s).queue with
  | [] => s
  | t :: rest => count .standbyShed (notice t.id tagDiscarded (setQueue x rest s))

/-- A push on a correction stack; the ninth entry pushes the bottom one off (R95, R96). -/
def pushEntry (id : TokenId) (st : List StackEntry) : List StackEntry :=
  ({ tag := .waiting, id := id } :: st).take Config.stackPlaces

/-- Steps 3 to 7 of R31: identity, stamp (R45), enqueue, push, admission. -/
def createToken (x : Lane) (kind : TokenKind) (sentEnd attach : Bool) (text : List Byte)
    (s : State) : State :=
  let id : TokenId := { lane := x, serial := serialFor x s }
  let arrival := s.timebase.e
  let l := laneOf x s
  let stamp := arrival - frames l.lagEff
  let speech := clampSpeech l.speechLast stamp
  let t : Token :=
    { id := id, kind := kind, sentEnd := sentEnd, attach := attach, text := text,
      arrival := arrival, speech := speech }
  let s := countIf .bunched (bunches l.speechLast stamp) s
  let stack := match kind with
    | .paragraph => l.stack
    | _ => pushEntry id l.stack
  let s := setLane x
    { l with queue := l.queue ++ [t], nextSerial := id.serial + 1, speechLast := some speech,
             stack := stack } s
  if floorLane s.floor.state = x then admissionRun s else s

/-- A WORD, SPEAKER or BREAK record that has passed its checks makes a token, or is refused when its
lane holds the floor with a full queue (R31, R33, R34). -/
def tokenRecord (x : Lane) (kind : TokenKind) (sentEnd attach : Bool) (text : List Byte)
    (s : State) : State :=
  if Config.laneQueueCapacity ≤ (laneOf x s).queue.length then
    if floorLane s.floor.state = x then raise .laneOverrun (count .laneOverrun s)
    else createToken x kind sentEnd attach text (shedHead x s)
  else createToken x kind sentEnd attach text s

end Sys2Proof.Machine
end

