-- ==== Sys2Proof/Machine/Corrections.lean ====
section
/-! DEFINITION. The CORRECT record: its pops and the tail rule (R103 to R109). -/

namespace Sys2Proof.Machine

/-- The queue or list without the named token (R104, R67). -/
def withoutToken (id : TokenId) (ts : List Token) : List Token := ts.filter fun t => t.id ≠ id

/-- A late correction: it is counted and changes nothing else (R106). -/
def lateCorrection (s : State) : State := count .lateCorrections s

/-- The pop of an entry tagged COMPOSED, SENDING or SHOWN: undone when its token is the last span,
else late (R106). -/
def popComposed (id : TokenId) (s : State) : State :=
  match s.composer.spans.getLast? with
  | none => lateCorrection s
  | some sp => if sp.id = id then undoLast sp s else lateCorrection s

/-- What the pop of an entry of lane `x` does, by its tag (R104 to R107). -/
def popAction (x : Lane) (en : StackEntry) (s : State) : State :=
  match en.tag with
  | .waiting => setQueue x (withoutToken en.id (laneOf x s).queue) s
  | .pending => admissionRun { s with schedule := withoutToken en.id s.schedule }
  | .composed => popComposed en.id s
  | .sending => popComposed en.id s
  | .shown => popComposed en.id s
  | .closed => lateCorrection s
  | .dropped => s

/-- At most `n` pops of lane `x`'s stack; one that finds it empty ends them and counts the
underflow (R103). -/
def correctLane (x : Lane) (n : Nat) (s : State) : State :=
  match n with
  | 0 => s
  | m + 1 =>
    match (laneOf x s).stack with
    | [] => count .underflows s
    | en :: rest => correctLane x m (popAction x en (setStack x rest s))

end Sys2Proof.Machine
end

