-- ==== Sys2Proof/Machine/Retiming.lean ====
section
/-! DEFINITION. The Retiming Unit's settings (R38 to R42), the slew ticker (R15, R16) and the slew
tick (R44). -/

namespace Sys2Proof.Machine

/-- P, the period of the slew ticker (R15). -/
def slewPeriod (m : SlewMode) : Nat :=
  match m with
  | .normal => 12
  | .brisk => 3

/-- One frame from an effective value toward its target (R44). -/
def stepToward (target eff : Nat) : Nat :=
  if eff < target then eff + 1 else if target < eff then eff - 1 else eff

/-- A lane's effective lag after a slew tick. -/
def slewLane (l : LaneState) : LaneState := { l with lagEff := stepToward l.lagTarget l.lagEff }

/-- A slew tick: the ticker wraps to 0 and the three effective values step (R15, R44). -/
def slewTick (s : State) : State :=
  { s with
    timebase := { s.timebase with ticker := 0 }
    retiming := { s.retiming with delayEff := stepToward s.retiming.delayTarget s.retiming.delayEff }
    laneA := slewLane s.laneA
    laneB := slewLane s.laneB }

/-- The ticker wraps when it next advances (R15). -/
def tickerWraps (s : State) : Bool := slewPeriod s.retiming.slewMode ≤ s.timebase.ticker + 1

/-- The ticker's reaction to a frame event: it advances, and carries a tick when it wraps (R15). -/
def slewStep (s : State) : State :=
  if tickerWraps s then slewTick s
  else { s with timebase := { s.timebase with ticker := s.timebase.ticker + 1 } }

/-- A value put into 0 to `top`, and whether it was clamped. -/
def clampTop (top : Nat) (v : Word) : Nat × Result :=
  if v.toNat ≤ top then (v.toNat, .done) else (top, .clamped)

/-- DELAY, by directive or cue action (R38). -/
def setDelay (d : Word) (s : State) : State × Result :=
  let r := clampTop 300 d
  ({ s with retiming := { s.retiming with delayTarget := r.1 } }, r.2)

/-- LAG (R39). -/
def setLag (lane l : Word) (s : State) : State × Result :=
  match laneOfWord lane with
  | none => (s, .range)
  | some x =>
    let r := clampTop 300 l
    (setLane x { laneOf x s with lagTarget := r.1 } s, r.2)

/-- LEAD (R40). -/
def setLead (n : Word) (s : State) : State × Result :=
  let r := clampTop 12 n
  ({ s with retiming := { s.retiming with lead := r.1 } }, r.2)

/-- STALE (R41). -/
def setHorizon (h : Word) (s : State) : State × Result :=
  if h.toNat < 25 then ({ s with retiming := { s.retiming with horizon := 25 } }, .clamped)
  else
    let r := clampTop 500 h
    ({ s with retiming := { s.retiming with horizon := r.1 } }, r.2)

/-- The slew mode with the ticker set to 0 (R16, R42). -/
def setSlewMode (m : SlewMode) (s : State) : State :=
  { s with retiming := { s.retiming with slewMode := m }
           timebase := { s.timebase with ticker := 0 } }

/-- SLEW (R42). -/
def setSlew (mode : Word) (s : State) : State × Result :=
  if mode = 0 then (setSlewMode .normal s, .done)
  else if mode = 1 then (setSlewMode .brisk s, .done)
  else (s, .range)

end Sys2Proof.Machine
end

