-- ==== Sys2Proof/Machine/Context.lean ====
section
/-! DEFINITION. The Context Unit: hold and resume (R163, R164), the image a snapshot writes (R166 to
R169, R186), the context port (R170), the restore fill (R171, R172). -/

namespace Sys2Proof.Machine

/-! ### Hold and resume -/

/-- HOLD, by directive or cue action (R163). -/
def holdService (s : State) : State × Result := ({ s with service := .held }, .done)

/-- RESUME, by directive or cue action (R164). -/
def resumeService (s : State) : State × Result :=
  match s.service, s.image.state with
  | .held, .filling => (s, .state)
  | .run, .filling => (s, .state)
  | .run, _ => (s, .done)
  | .held, _ => ({ s with service := .run, image := ImageBuffer.clear }, .done)

/-! ### Numbers of the image's fields (R186) -/

/-- Floor states in the image and in report word 1. -/
def floorCode (f : FloorState) : Nat :=
  match f with
  | .floorA => 0
  | .floorB => 1
  | .passingAB => 2
  | .passingBA => 3

/-- Slew modes in the image and in report word 15. -/
def slewCode (m : SlewMode) : Nat :=
  match m with
  | .normal => 0
  | .brisk => 1

/-- Token kinds in a token record, as in a lane header. -/
def kindCode (k : TokenKind) : BitVec 4 :=
  match k with
  | .word => 1
  | .speaker => 2
  | .paragraph => 3

/-- Tags in a stack entry word. -/
def tagCode (t : Tag) : BitVec 3 :=
  match t with
  | .waiting => 0
  | .pending => 1
  | .composed => 2
  | .sending => 3
  | .shown => 4
  | .closed => 5
  | .dropped => 6

/-! ### The image of a snapshot -/

/-- The two words of an E value, low first. -/
def frameWords (f : Frame) : List Word := [lowWord f, highWord f]

/-- Two 8-bit numbers as a word, the first in the high byte. -/
def pairWord (high low : Nat) : Word := wordOf (256 * high + low)

/-- The layout word of the image (word 15) and of the report window (word 16). -/
def layoutWord (l : Layout) : Word :=
  BitVec.ofNat 4 l.base ++ BitVec.ofNat 4 l.depth ++ BitVec.ofNat 8 l.left

/-- The two value words of an S_last or S_tail: 0 when unset (R167). -/
def optionalFrameWords (f : Option Frame) : List Word := frameWords (f.getD 0)

/-- The settings section, 16 words (R167, R186). -/
def settingsWords (s : State) : List Word :=
  [wordOf s.retiming.delayTarget, wordOf s.retiming.delayEff,
   wordOf s.laneA.lagTarget, wordOf s.laneA.lagEff,
   wordOf s.laneB.lagTarget, wordOf s.laneB.lagEff,
   BitVec.ofNat 3 (slewCode s.retiming.slewMode) ++ BitVec.ofNat 4 s.retiming.lead ++
     BitVec.ofNat 9 s.retiming.horizon,
   layoutWord s.composer.layout,
   BitVec.ofNat 8 s.composer.layout.width ++ BitVec.ofNat 4 (floorCode s.floor.state) ++
     (0 : BitVec 1) ++ BitVec.ofBool s.retiming.speechTail.isSome ++
     BitVec.ofBool s.laneB.speechLast.isSome ++ BitVec.ofBool s.laneA.speechLast.isSome,
   wordOf s.floor.timer] ++
  optionalFrameWords s.laneA.speechLast ++ optionalFrameWords s.laneB.speechLast ++
  optionalFrameWords s.retiming.speechTail

/-- The text words of a token record: two characters to a word, a last odd one with a low byte of 0
(R168). -/
def textWords (text : List Byte) : List Word :=
  match text with
  | [] => []
  | [a] => [wordOfBytes a 0]
  | a :: b :: rest => wordOfBytes a b :: textWords rest

/-- A token record (R168). -/
def tokenWords (t : Token) : List Word :=
  [kindCode t.kind ++ BitVec.ofBool t.sentEnd ++ BitVec.ofBool t.attach ++ (0 : BitVec 4) ++
     BitVec.ofNat 6 t.text.length,
   identityWord 0 t.id] ++ frameWords t.speech ++ frameWords t.arrival ++ textWords t.text

/-- The two words of a group record in the group table (R169). -/
def groupWords (g : GroupRecord) : List Word :=
  [identityWord 0 g.id, pairWord g.composed g.taken]

/-- The two words of a span (R169). -/
def spanWords (sp : Span) : List Word := [identityWord 0 sp.id, wordOf sp.columns]

/-- A stack entry word (R169, R186). -/
def entryWord (en : StackEntry) : Word := identityWord (tagCode en.tag) en.id

/-- The presence mask of a stack: its places from 1 up to its depth (R169). -/
def presenceMask (st : List StackEntry) : Nat := 2 ^ st.length - 1

/-- The stacks section (R169). -/
def stackWords (s : State) : List Word :=
  pairWord (presenceMask s.laneB.stack) (presenceMask s.laneA.stack) ::
    (s.laneA.stack.reverse.map entryWord ++ s.laneB.stack.reverse.map entryWord)

/-- The action and argument words of a cue (R169, R186). -/
def actionWords (a : CueAction) : List Word :=
  match a with
  | .hold => [0, 0]
  | .resume => [1, 0]
  | .clear => [2, 0]
  | .handoff lane wait => [pairWord (min lane.toNat 255) 3, wait]
  | .delay d => [4, d]

/-- The five words of an armed cue (R169). -/
def cueWords (c : Cue) : List Word :=
  (c.tag.zeroExtend 16) :: (frameWords (frames c.target) ++ actionWords c.action)

/-- The sections of the image after the header. -/
def imageSections (s : State) : List Word :=
  settingsWords s ++ s.laneA.queue.flatMap tokenWords ++ s.laneB.queue.flatMap tokenWords ++
    s.schedule.flatMap tokenWords ++ s.composer.cells.map cellWord ++
    s.composer.groups.flatMap groupWords ++ wordOf s.composer.cursor ::
    (s.composer.spans.flatMap spanWords ++ stackWords s ++ s.cues.flatMap cueWords)

/-- The format word of an image. -/
def formatWord : Word := 0x4A31

/-- The image without its check word (R167). -/
def imageBody (s : State) : List Word :=
  let sections := imageSections s
  [formatWord, wordOf (8 + sections.length + 1)] ++ frameWords s.timebase.e ++
    [pairWord s.laneA.queue.length s.laneB.queue.length,
     pairWord s.schedule.length s.composer.cells.length,
     pairWord s.composer.groups.length s.composer.spans.length,
     pairWord s.cues.length 0] ++ sections

/-- The image of the working state (R166 to R169). -/
def imageOf (s : State) : List Word := imageBody s ++ [checkWord (imageBody s)]

/-- SNAPSHOT (R166). -/
def takeSnapshot (s : State) : State × Result :=
  if s.service = .run ∨ s.image.state = .filling then (s, .state)
  else ({ s with image :=
    { state := .snapshot, words := imageOf s, readPos := 0, overfilled := false } }, .done)

/-! ### The buffer's positions (R165, log 18) -/

/-- The image length. -/
def imageLength (b : ImageBuffer) : Nat := if b.state = .snapshot then b.words.length else 0

/-- The fill position. -/
def fillPosition (b : ImageBuffer) : Nat := if b.state = .filling then b.words.length else 0

/-- What a processor read of the context port returns (R170). -/
def contextWord (b : ImageBuffer) : Word :=
  match b.state with
  | .snapshot => if b.readPos < b.words.length then b.words.getD b.readPos 0 else 0xFFFF
  | .empty => 0xFFFE
  | .filling => 0xFFFE

/-- The buffer after a processor read of the context port (R170). -/
def contextAdvance (b : ImageBuffer) : ImageBuffer :=
  match b.state with
  | .snapshot => { b with readPos := if b.readPos < b.words.length then b.readPos + 1 else 0 }
  | .empty => b
  | .filling => b

/-- A processor write to the restore port is collected while FILLING (R171). -/
def collectWord (w : Word) (b : ImageBuffer) : ImageBuffer :=
  match b.state with
  | .filling =>
    if Config.imageCapacity ≤ b.words.length then { b with overfilled := true }
    else { b with words := b.words ++ [w] }
  | .empty => b
  | .snapshot => b

/-- RESTORE_OPEN (R171). -/
def openRestore (s : State) : State × Result :=
  match s.service with
  | .run => (s, .state)
  | .held => ({ s with image := { ImageBuffer.clear with state := .filling } }, .done)

/-- RESTORE_ABANDON (R172). -/
def abandonRestore (s : State) : State × Result :=
  if s.image.state = .filling then ({ s with image := ImageBuffer.clear }, .done) else (s, .state)

end Sys2Proof.Machine
end

