-- ==== Sys2Proof/Machine/Timecode.lean ====
section
/-! DEFINITION. The frame rate (R1), reception of timecode words (R8, R185), their validity and
frame numbers (R9, R10), and the classification of a frame (R11 to R13). -/

namespace Sys2Proof.Machine

/-! ### Rate -/

/-- The three frame rates of R1. -/
inductive Rate
  | fps25
  | fps30
  | fps30drop
deriving DecidableEq, Repr

/-- The rate that a RATE strap value selects; 11 is treated as 25 fps in every respect (R1). -/
def rateOf (strap : BitVec 2) : Rate :=
  if strap = 1 then .fps30 else if strap = 2 then .fps30drop else .fps25

/-- The nominal period in CLK27 clocks (R1). -/
def nominalPeriod (r : Rate) : Nat :=
  match r with
  | .fps25 => 1080000
  | .fps30 => 900900
  | .fps30drop => 900900

/-- The freewheel deadline in CLK27 clocks (R1). -/
def freewheelDelay (r : Rate) : Nat :=
  match r with
  | .fps25 => 1620000
  | .fps30 => 1351350
  | .fps30drop => 1351350

/-- The absorb window in CLK27 clocks (R1). -/
def absorbWindow (r : Rate) : Nat :=
  match r with
  | .fps25 => 540000
  | .fps30 => 450450
  | .fps30drop => 450450

/-- Frame labels in one second. -/
def framesPerSecond (r : Rate) : Nat :=
  match r with
  | .fps25 => 25
  | .fps30 => 30
  | .fps30drop => 30

/-- The day length (R10). -/
def dayLength (r : Rate) : Nat :=
  match r with
  | .fps25 => 2160000
  | .fps30 => 2592000
  | .fps30drop => 2589408

/-! ### Labels -/

/-- A timecode label: hours, minutes, seconds, frames. -/
structure Label where
  h : Nat
  m : Nat
  s : Nat
  f : Nat
deriving DecidableEq, Repr

/-- The label that a timecode word carries (R185). -/
def labelOfWord (w : BitVec 32) : Label :=
  { h := (w.extractLsb' 27 5).toNat, m := (w.extractLsb' 21 6).toNat,
    s := (w.extractLsb' 15 6).toNat, f := (w.extractLsb' 10 5).toNat }

/-- The labels that drop-frame skips: frames 00 and 01 of second 00 in a minute that is not a
multiple of 10 (R9). -/
def skippedLabel (l : Label) : Bool := l.f < 2 && l.s == 0 && l.m % 10 != 0

/-- A label is valid at a rate (R9). -/
def validLabel (r : Rate) (l : Label) : Bool :=
  l.h < 24 && l.m < 60 && l.s < 60 && l.f < framesPerSecond r &&
    (r != .fps30drop || !skippedLabel l)

/-- The frame number of a label (R10). -/
def frameNumber (r : Rate) (l : Label) : Nat :=
  let seconds := 3600 * l.h + 60 * l.m + l.s
  let minutes := 60 * l.h + l.m
  let whole := framesPerSecond r * seconds + l.f
  match r with
  | .fps25 => whole
  | .fps30 => whole
  | .fps30drop => whole - 2 * (minutes - minutes / 10)

/-- The label with this number of labels counted from the start of the day, none being skipped. -/
def plainLabel (fps n : Nat) : Label :=
  { h := n / fps / 3600, m := n / fps / 60 % 60, s := n / fps % 60, f := n % fps }

/-- How many skipped labels stand before the label of N in drop-frame: 18 in every ten minutes,
and two for each started minute of the last ten that is not the first (R10). -/
def skippedBefore (n : Nat) : Nat :=
  let rest := n % 17982
  18 * (n / 17982) + (if rest < 1800 then 0 else 2 * ((rest - 1800) / 1798 + 1))

/-- The valid label whose frame number is N (R17). -/
def labelOf (r : Rate) (n : Nat) : Label :=
  match r with
  | .fps25 => plainLabel 25 n
  | .fps30 => plainLabel 30 n
  | .fps30drop => plainLabel 30 (n + skippedBefore n)

/-! ### Reception -/

/-- The word of 32 sampled bits, the first sampled the most significant (R185). -/
def wordOfBits (bits : List Bool) : BitVec 32 :=
  bits.foldl (fun w b => (w <<< 1) ||| (BitVec.ofBool b).zeroExtend 32) 0

/-- A framing ends: with exactly 32 bits it is the new pending word, else it is discarded (R8). -/
def endFraming (bits : List Bool) (tb : Timebase) : Timebase :=
  if bits.length = 32 then { tb with framing := none, pendingWord := some (wordOfBits bits) }
  else { tb with framing := none }

/-- Bits are sampled in the framing in progress, or in a new one, which TCS may then end (R185). A
framing of more than 32 bits is discarded at its end whatever they are, so 33 are kept.
DESIGN CHOICE (log 27, unsafe): where TCS rose before the release of RESET and is still high after it,
R8 abandons that framing and the spec is silent on bits clocked after the release under the same TCS;
here they begin a new framing, which can complete a word. -/
def receiveBits (bits : List Bool) (falls : Bool) (tb : Timebase) : Timebase :=
  let sampled := (tb.framing.getD [] ++ bits).take 33
  if falls then endFraming sampled tb else { tb with framing := some sampled }

/-! ### Classification -/

/-- A frame without a valid word: N is extrapolated while known (R12). -/
def extrapolate (cls : TimecodeClass) (day : Nat) (tb : Timebase) : Timebase :=
  { tb with cls := cls, n := if tb.known then (tb.n + 1) % day else tb.n }

/-- The class of a frame whose valid word has this frame number (R11). -/
def classOf (new day : Nat) (tb : Timebase) : TimecodeClass :=
  if tb.known && new == (tb.n + 1) % day then .nextFrame
  else if tb.known && new == tb.n then .repeatFrame
  else .jump

/-- A frame with a valid word (R11, R13). -/
def classify (new day : Nat) (s : State) : State :=
  let tb := s.timebase
  match classOf new day tb with
  | .jump =>
    raise .jump (count .timecodeJump { s with timebase :=
      { tb with cls := .jump, n := new, known := true, epoch := tb.epoch + 1 } })
  | other => { s with timebase := { tb with cls := other, n := new } }

/-- The frame opened by a frame event takes the pending word as its word (R8) and is classified. -/
def openTimecode (s : State) : State :=
  let rate := rateOf s.rate
  let day := dayLength rate
  let word := s.timebase.pendingWord
  let s := { s with timebase := { s.timebase with pendingWord := none } }
  match word with
  | none => count .timecodeMissing { s with timebase := extrapolate .missing day s.timebase }
  | some w =>
    if validLabel rate (labelOfWord w) then classify (frameNumber rate (labelOfWord w)) day s
    else count .timecodeInvalid { s with timebase := extrapolate .invalid day s.timebase }

end Sys2Proof.Machine
end

