-- ==== Sys2Proof/Machine/Cues.lean ====
section
/-! DEFINITION. The Cue Table: arming (R154, R155), UNCUE (R160), retirement at a JUMP (R159) and
firing (R157). -/

namespace Sys2Proof.Machine

/-! ### Arming -/

/-- The parameter count of a CUE with this action value; none above 4 (R154). -/
def cueCount (action : Word) : Option Nat :=
  match action.toNat with
  | 0 => some 5
  | 1 => some 5
  | 2 => some 5
  | 3 => some 7
  | 4 => some 6
  | _ => none

/-- The action that an action value and its argument words name; none above 4 (R154). -/
def cueAction (action first second : Word) : Option CueAction :=
  match action.toNat with
  | 0 => some .hold
  | 1 => some .resume
  | 2 => some .clear
  | 3 => some (.handoff first second)
  | 4 => some (.delay first)
  | _ => none

/-- The forward distance from N to a target, modulo the day length (R155). -/
def forwardDistance (day n target : Nat) : Nat := (target + day - n) % day

/-- A CUE of correct shape is judged and armed (R155). -/
def armCue (tag : Byte) (label : Label) (action : CueAction) (s : State) : State × Result :=
  let rate := rateOf s.rate
  let day := dayLength rate
  let target := frameNumber rate label
  let distance := forwardDistance day s.timebase.n target
  if !s.timebase.known then (s, .noTimecode)
  else if !validLabel rate label then (s, .range)
  else if Config.cueCapacity ≤ s.cues.length then (s, .full)
  else if distance = 0 ∨ day / 2 < distance then (s, .past)
  else ({ s with cues := s.cues ++
    [{ tag := tag, target := target, epoch := s.timebase.epoch, action := action }] }, .done)

/-- The label of a CUE's first four parameters. -/
def cueLabel (params : List Word) : Label :=
  { h := (params.getD 0 0).toNat, m := (params.getD 1 0).toNat, s := (params.getD 2 0).toNat,
    f := (params.getD 3 0).toNat }

/-- The Cue Table judges a CUE's shape, then the cue itself (R154, R155). -/
def cueDirective (tag : Byte) (params : List Word) (s : State) : State × Result :=
  match cueAction (params.getD 4 0) (params.getD 5 0) (params.getD 6 0) with
  | none => (s, .range)
  | some action =>
    if cueCount (params.getD 4 0) ≠ some params.length then (s, .malformed)
    else armCue tag (cueLabel params) action s

/-- UNCUE (R160). -/
def uncue (tag : Word) (s : State) : State × Result :=
  if 255 < tag.toNat then (s, .range)
  else ({ s with cues := s.cues.filter fun c => c.tag.toNat ≠ tag.toNat }, .done)

/-! ### Firing -/

/-- The owner of a cue's action carries it out as its directive (R157, step 2). -/
def actionOwner (a : CueAction) (s : State) : State × Result :=
  match a with
  | .hold => holdService s
  | .resume => resumeService s
  | .clear => (clearWindow s, .done)
  | .handoff lane wait => handoff lane wait s
  | .delay d => setDelay d s

/-- A cue action's result is counted, and no outcome is recorded (R157, step 3). -/
def settleAction (r : Result) (s : State) : State :=
  match r with
  | .done => s
  | .clamped => count .clamped s
  | _ => raise .refusedCueAction (count .cueActionsRefused s)

/-- A cue is due: the timecode is known, the cue is of the current epoch and its target is N (R157). -/
def cueDue (tb : Timebase) (c : Cue) : Bool :=
  tb.known && c.epoch == tb.epoch && c.target == tb.n

/-- A cue that has left the table fires: it is counted and its action carried out (R157). -/
def fireCue (c : Cue) (s : State) : State :=
  let r := actionOwner c.action (count .cuesFired s)
  settleAction r.2 r.1

/-- The oldest due cue is retired and fires; nothing when none is due. -/
def fireOldest (s : State) : State :=
  match s.cues.find? (cueDue s.timebase) with
  | none => s
  | some c => fireCue c { s with cues := s.cues.eraseP (cueDue s.timebase) }

/-- The oldest due cue fires, `n` times over. -/
def fireUpTo (n : Nat) (s : State) : State :=
  match n with
  | 0 => s
  | m + 1 => fireUpTo m (fireOldest s)

/-- At most `n` due cues fire, one after another in arming order (R157). -/
def fireSome (n : Nat) (s : State) : State := fireUpTo (min n s.cues.length) s

/-- Every due cue fires. -/
def fireAll (s : State) : State := fireUpTo s.cues.length s

/-- At a JUMP frame every armed cue of an older epoch is retired and counted (R159). -/
def retireStale (s : State) : State :=
  if s.timebase.cls ≠ .jump then s
  else
    let epoch := s.timebase.epoch
    let old := s.cues.filter fun c => c.epoch ≠ epoch
    countTimes .cuesStale old.length { s with cues := s.cues.filter fun c => c.epoch = epoch }

end Sys2Proof.Machine
end

