-- ==== Sys2Proof/Machine/Restore.lean ====
section
/-! DEFINITION. The restore commit: reading the collected image section by section, the checks of
R173, and the loading of R174. -/

namespace Sys2Proof.Machine

/-! ### An image as read -/

/-- A stack entry of an image; tag number 7 is none of the seven tags (R186). -/
structure ImageEntry where
  tag : Option Tag
  id : TokenId
deriving DecidableEq, Repr

/-- The sections of an image that follow its header and settings, as read. -/
structure ImageSections where
  queueA : List Token
  queueB : List Token
  schedule : List Token
  cells : List Cell
  groups : List GroupRecord
  cursor : Nat
  spans : List Span
  /-- The entries of the present places, from place 1 upward. -/
  stackA : List ImageEntry
  stackB : List ImageEntry
  cues : List Cue
deriving DecidableEq, Repr

/-! ### Reading sections -/

/-- A token kind of a token record (R186). -/
def kindOfCode (k : BitVec 4) : Option TokenKind :=
  if k = 1 then some .word else if k = 2 then some .speaker
  else if k = 3 then some .paragraph else none

/-- The length a token record of this kind may carry (R173, token records). -/
def tokenLengthOk (kind : TokenKind) (len : Nat) : Bool :=
  match kind with
  | .word => 1 ≤ len && len ≤ 32
  | .speaker => len == 0
  | .paragraph => len == 0

/-- One token record, and the words after it (R168, R173). -/
def readToken (ws : List Word) : Option (Token × List Word) :=
  match ws with
  | w :: i :: s0 :: s1 :: a0 :: a1 :: rest =>
    let len := field w 0 6
    let textLen := (len + 1) / 2
    match kindOfCode (laneKind w) with
    | none => none
    | some kind =>
      if tokenLengthOk kind len && textLen ≤ rest.length then
        some ({ id := idOfWord i, kind := kind, sentEnd := laneSentEnd w, attach := laneAttach w,
                text := (charsOf (rest.take textLen) len).map substitute,
                speech := frameOfWords s0 s1, arrival := frameOfWords a0 a1 }, rest.drop textLen)
      else none
  | _ => none

/-- `n` items read one after another, and the words after them. -/
def readMany {α : Type} (read : List Word → Option (α × List Word)) (n : Nat) (ws : List Word) :
    Option (List α × List Word) :=
  match n with
  | 0 => some ([], ws)
  | m + 1 =>
    match read ws with
    | none => none
    | some (x, rest) =>
      match readMany read m rest with
      | none => none
      | some (xs, tail) => some (x :: xs, tail)

/-- One word of the cell section. -/
def readCell (ws : List Word) : Option (Cell × List Word) :=
  match ws with
  | [] => none
  | w :: rest => (cellOfWord w).map fun c => (c, rest)

/-- One group record of the group table: no S and E_a, and columns taken equal to the cells taken
(R174). -/
def readGroup (ws : List Word) : Option (GroupRecord × List Word) :=
  match ws with
  | i :: l :: rest =>
    some ({ id := idOfWord i, counts := none, composed := field l 8 6, taken := field l 0 6,
            columnsTaken := field l 0 6 }, rest)
  | _ => none

/-- One span, its start column still to be laid out. -/
def readSpan (ws : List Word) : Option (Span × List Word) :=
  match ws with
  | i :: c :: rest => some ({ id := idOfWord i, start := 0, columns := c.toNat }, rest)
  | _ => none

/-- A tag of a stack entry word. -/
def tagOfCode (t : BitVec 3) : Option Tag :=
  match t.toNat with
  | 0 => some .waiting
  | 1 => some .pending
  | 2 => some .composed
  | 3 => some .sending
  | 4 => some .shown
  | 5 => some .closed
  | 6 => some .dropped
  | _ => none

/-- One stack entry. -/
def readEntry (ws : List Word) : Option (ImageEntry × List Word) :=
  match ws with
  | [] => none
  | w :: rest => some ({ tag := tagOfCode (w.extractLsb' 13 3), id := idOfWord w }, rest)

/-- The places a presence mask marks. -/
def placesOf (mask : Byte) : Nat := ((List.range 8).filter fun i => mask.getLsbD i).length

/-- The action of a cue from its action and argument words; none for an action above 4 (R173). -/
def actionOfWords (action argument : Word) : Option CueAction :=
  match field action 0 8 with
  | 0 => some .hold
  | 1 => some .resume
  | 2 => some .clear
  | 3 => some (.handoff (wordOf (field action 8 8)) argument)
  | 4 => some (.delay argument)
  | _ => none

/-- One cue, armed in this epoch (R153). -/
def readCue (epoch : Byte) (ws : List Word) : Option (Cue × List Word) :=
  match ws with
  | tag :: low :: high :: action :: argument :: rest =>
    (actionOfWords action argument).map fun act =>
      ({ tag := lowByte tag, target := (frameOfWords low high).toNat, epoch := epoch,
         action := act }, rest)
  | _ => none

/-- The section counts of an image header (R186). -/
structure ImageCounts where
  queueA : Nat
  queueB : Nat
  schedule : Nat
  cells : Nat
  groups : Nat
  spans : Nat
  cues : Nat
deriving DecidableEq, Repr

/-- The section counts of an image. -/
def countsOf (ws : List Word) : ImageCounts :=
  { queueA := field (ws.getD 4 0) 8 8, queueB := field (ws.getD 4 0) 0 8,
    schedule := field (ws.getD 5 0) 8 8, cells := field (ws.getD 5 0) 0 8,
    groups := field (ws.getD 6 0) 8 8, spans := field (ws.getD 6 0) 0 8,
    cues := field (ws.getD 7 0) 8 8 }

/-- The cell queue and row model sections: cells, group table, cursor and spans. -/
def readRow (n : ImageCounts) (ws : List Word) :
    Option ((List Cell × List GroupRecord × Nat × List Span) × List Word) := do
  let (cells, ws) ← readMany readCell n.cells ws
  let (groups, ws) ← readMany readGroup n.groups ws
  match ws with
  | [] => none
  | cursor :: ws =>
    let (spans, ws) ← readMany readSpan n.spans ws
    some ((cells, groups, cursor.toNat, spans), ws)

/-- The stacks section. -/
def readStacks (ws : List Word) : Option ((List ImageEntry × List ImageEntry) × List Word) :=
  match ws with
  | [] => none
  | mask :: ws => do
    let (stackA, ws) ← readMany readEntry (placesOf (lowByte mask)) ws
    let (stackB, ws) ← readMany readEntry (placesOf (highByte mask)) ws
    some ((stackA, stackB), ws)

/-- The sections after the settings, which must end exactly where these words end (R173, extent);
none where a section cannot be read. -/
def readSections (epoch : Byte) (n : ImageCounts) (ws : List Word) : Option ImageSections := do
  let (queueA, ws) ← readMany readToken n.queueA ws
  let (queueB, ws) ← readMany readToken n.queueB ws
  let (schedule, ws) ← readMany readToken n.schedule ws
  let ((cells, groups, cursor, spans), ws) ← readRow n ws
  let ((stackA, stackB), ws) ← readStacks ws
  let (cues, ws) ← readMany (readCue epoch) n.cues ws
  if ws.isEmpty then
    some { queueA, queueB, schedule, cells, groups, cursor, spans, stackA, stackB, cues }
  else none

/-! ### The checks of R173 -/

/-- The layout of an image's settings. -/
def imageLayout (ws : List Word) : Layout :=
  { base := field (ws.getD 15 0) 12 4, depth := field (ws.getD 15 0) 8 4,
    left := field (ws.getD 15 0) 0 8, width := field (ws.getD 16 0) 8 8 }

/-- Format, length and sum. -/
def headerOk (b : ImageBuffer) : Bool :=
  b.words.getD 0 0 == formatWord && (b.words.getD 1 0).toNat == b.words.length &&
    !b.overfilled && 25 ≤ b.words.length && wordSum b.words == 0

/-- Counts. -/
def countsOk (n : ImageCounts) : Bool :=
  n.queueA ≤ 48 && n.queueB ≤ 48 && n.schedule ≤ 96 && n.cells ≤ 64 && n.groups ≤ 64 &&
    n.spans ≤ 40 && n.cues ≤ 8

/-- No identity stands twice in the list. -/
def idsDistinct (ids : List TokenId) : Bool :=
  match ids with
  | [] => true
  | i :: rest => !rest.contains i && idsDistinct rest

/-- The identities of the token records. -/
def tokenIds (g : ImageSections) : List TokenId :=
  (g.queueA ++ g.queueB ++ g.schedule).map (·.id)

/-- Lane A's queue holds lane A's tokens and lane B's queue lane B's (R173, token records). -/
def queueLanesOk (g : ImageSections) : Bool :=
  (g.queueA.all fun t => t.id.lane == .a) && (g.queueB.all fun t => t.id.lane == .b)

/-- Identities. -/
def identitiesOk (g : ImageSections) : Bool :=
  let tokens := tokenIds g
  let groups := g.groups.map (·.id)
  let spans := g.spans.map (·.id)
  idsDistinct (tokens ++ groups) && idsDistinct (tokens ++ spans) &&
    idsDistinct ((g.stackA ++ g.stackB).map (·.id))

/-- The group cells, front to back, are exactly the untaken cells of the group table in table order,
each group's run unbroken, and a MARKER's group has one cell composed (R173, cells). `inRun` cells
of the run begun are still to come. -/
def runsOk (inRun : Nat) (gs : List GroupRecord) (cs : List Cell) : Bool :=
  match cs with
  | [] => inRun == 0 && gs.isEmpty
  | c :: rest =>
    if isGroupCell c then
      match inRun, gs with
      | k + 1, _ => c != .marker && runsOk k gs rest
      | 0, [] => false
      | 0, g :: others =>
        (c != .marker || g.composed == 1) && runsOk (untaken g - 1) others rest
    else inRun == 0 && runsOk 0 gs rest

/-- Cells. -/
def cellsOk (g : ImageSections) : Bool :=
  (g.groups.all fun r => r.taken < r.composed && r.composed ≤ 33) && runsOk 0 g.groups g.cells

/-- Row. -/
def rowOk (width : Nat) (g : ImageSections) : Bool :=
  g.cursor ≤ width && g.cursor == (g.spans.map (·.columns)).sum &&
    g.spans.all fun sp => 1 ≤ sp.columns

/-- ERASE cells. -/
def isErase (c : Cell) : Bool :=
  match c with
  | .erase _ => true
  | _ => false

/-- The queue ends with the last cell of this identity's group: its record is the last one, and the
last cell of the queue is a group cell. -/
def endsWithGroup (id : TokenId) (g : ImageSections) : Bool :=
  (match g.groups.getLast? with
    | none => false
    | some r => r.id == id) &&
  (match g.cells.getLast? with
    | none => false
    | some c => isGroupCell c)

/-- Tail. -/
def tailOk (g : ImageSections) : Bool :=
  match g.spans.getLast? with
  | none => true
  | some sp =>
    if (groupOf sp.id g.groups).isSome then endsWithGroup sp.id g
    else (g.cells.all isErase) && g.cells.length < 40

/-- Tags whose entries must name a token record, group record or span (R173). -/
def liveTag (t : Option Tag) : Bool :=
  match t with
  | none => false
  | some .closed => false
  | some .dropped => false
  | some _ => true

/-- Stack references. -/
def stackOk (x : Lane) (g : ImageSections) (st : List ImageEntry) : Bool :=
  let named := tokenIds g ++ g.groups.map (·.id) ++ g.spans.map (·.id)
  st.all fun en => en.id.lane == x && (!liveTag en.tag || named.contains en.id)

/-- Every check on the sections and the layout. -/
def sectionsOk (l : Layout) (g : ImageSections) : Bool :=
  queueLanesOk g && identitiesOk g && layoutValid l && cellsOk g && rowOk l.width g && tailOk g &&
    stackOk .a g g.stackA && stackOk .b g g.stackB

/-- The sections of the collected image, if it passes every check of R173. -/
def validImage (epoch : Byte) (b : ImageBuffer) : Option ImageSections :=
  if headerOk b && countsOk (countsOf b.words) then
    match readSections epoch (countsOf b.words) ((b.words.drop 24).dropLast) with
    | none => none
    | some g => if sectionsOk (imageLayout b.words) g then some g else none
  else none

/-! ### Loading (R174) -/

/-- A value loaded from two words of an image when its presence flag is set, rebased. -/
def loadFrame (present : Bool) (low high : Word) (shift : Frame) : Option Frame :=
  if present then some (frameOfWords low high + shift) else none

/-- A floor state from its number; any other number loads FLOOR_A with the timer at 0 (R144). -/
def loadFloor (code : Nat) (timer : Word) : Floor :=
  match code with
  | 1 => { state := .floorB, timer := 0 }
  | 2 => { state := .passingAB, timer := min timer.toNat 250 }
  | 3 => { state := .passingBA, timer := min timer.toNat 250 }
  | _ => { state := .floorA, timer := 0 }

/-- The settings of an image (R37, R43, R186). -/
def loadRetiming (ws : List Word) (shift : Frame) (r : Retiming) : Retiming :=
  { r with
    delayTarget := min (ws.getD 8 0).toNat 300
    delayEff := min (ws.getD 9 0).toNat 300
    lead := min (field (ws.getD 14 0) 9 4) 12
    horizon := max 25 (min (field (ws.getD 14 0) 0 9) 500)
    slewMode := if field (ws.getD 14 0) 13 3 = 1 then .brisk else .normal
    speechTail := loadFrame ((ws.getD 16 0).getLsbD 2) (ws.getD 22 0) (ws.getD 23 0) shift }

/-- A token with its S and E_a rebased. -/
def rebaseToken (shift : Frame) (t : Token) : Token :=
  { t with speech := t.speech + shift, arrival := t.arrival + shift }

/-- The schedule kept in speech order: an entry whose S precedes that of the entry loaded before it
is given that S (R70). -/
def orderSchedule (before : Option Frame) (ts : List Token) : List Token :=
  match ts with
  | [] => []
  | t :: rest =>
    let speech := clampSpeech before t.speech
    { t with speech := speech } :: orderSchedule (some speech) rest

/-- S_tail after the schedule is loaded: the S of the last entry when S_tail is unset or precedes it
(R70). -/
def loadTail (tail : Option Frame) (ts : List Token) : Option Frame :=
  match ts.getLast? with
  | none => tail
  | some t =>
    match tail with
    | none => some t.speech
    | some st => if precedes st t.speech then some t.speech else some st

/-- Start columns laid out from column `at0` (R174). -/
def layoutSpans (at0 : Nat) (sps : List Span) : List Span :=
  match sps with
  | [] => []
  | sp :: rest => { sp with start := at0 } :: layoutSpans (at0 + sp.columns) rest

/-- The tag a loaded entry takes, from where its token stands (R114). -/
def derivedTag (queue schedule : List Token) (groups : List GroupRecord) (spans : List Span)
    (en : ImageEntry) : Tag :=
  if queue.any fun t => t.id == en.id then .waiting
  else if schedule.any fun t => t.id == en.id then .pending
  else if spans.any fun sp => sp.id == en.id then
    match groupOf en.id groups with
    | none => .shown
    | some g => if g.taken = 0 then .composed else .sending
  else if groups.any fun g => g.id == en.id then .closed
  else
    match en.tag with
    | some .closed => .closed
    | _ => .dropped

/-- A stack as loaded, top entry first (R114). -/
def loadStack (queue schedule : List Token) (g : ImageSections) (st : List ImageEntry) :
    List StackEntry :=
  (st.map fun en => { tag := derivedTag queue schedule g.groups g.spans en, id := en.id }).reverse

/-- A lane as loaded: the ring parser stays as it is (R19). -/
def loadLane (target eff : Word) (last : Option Frame) (queue : List Token)
    (stack : List StackEntry) (l : LaneState) : LaneState :=
  { parser := l.parser, lagTarget := min target.toNat 300, lagEff := min eff.toNat 300,
    queue := queue, nextSerial := 0, speechLast := last, stack := stack }

/-- Steps 1 to 8 of R174. The Emission Unit's state, its held-cells marks among it, stays as it was
(R117, R174; log 15). -/
def loadSections (ws : List Word) (g : ImageSections) (s : State) : State :=
  let shift := s.timebase.e - frameOfWords (ws.getD 2 0) (ws.getD 3 0)
  let queueA := g.queueA.map (rebaseToken shift)
  let queueB := g.queueB.map (rebaseToken shift)
  let schedule := orderSchedule none (g.schedule.map (rebaseToken shift))
  let present := ws.getD 16 0
  let retiming := loadRetiming ws shift s.retiming
  { s with
    timebase := { s.timebase with ticker := 0 }
    retiming := { retiming with speechTail := loadTail retiming.speechTail schedule }
    laneA := loadLane (ws.getD 10 0) (ws.getD 11 0)
      (loadFrame (present.getLsbD 0) (ws.getD 18 0) (ws.getD 19 0) shift) queueA
      (loadStack queueA schedule g g.stackA) s.laneA
    laneB := loadLane (ws.getD 12 0) (ws.getD 13 0)
      (loadFrame (present.getLsbD 1) (ws.getD 20 0) (ws.getD 21 0) shift) queueB
      (loadStack queueB schedule g g.stackB) s.laneB
    schedule := schedule
    composer := { layout := imageLayout ws, cells := g.cells, groups := g.groups,
                  cursor := g.cursor, spans := layoutSpans 0 g.spans }
    cues := g.cues
    floor := loadFloor (field present 4 4) (ws.getD 17 0)
    image := ImageBuffer.clear }

/-- RESTORE_COMMIT (R173, R174). DEDUCED (log 28, unsafe): the load itself keeps every counter, and
the admission run of step 9 counts what it bunches and what a pass it completes trims, as R59 and R138
say of every run; R174's "kept as they were ... all counters" is read of the load alone. -/
def commitRestore (s : State) : State × Result :=
  if s.image.state ≠ .filling then (s, .state)
  else
    match validImage s.timebase.epoch s.image with
    | none => ({ s with image := ImageBuffer.clear }, .badImage)
    | some g => (admissionRun (loadSections s.image.words g s), .done)

end Sys2Proof.Machine
end

