-- ==== Sys2Proof/Machine/Directives.lean ====
section
/-! DEFINITION. The Directive Unit: the judgement of a directive record (R147), outcomes (R148,
R149), ZERO_COUNTS (R150) and RESTART (R151). -/

namespace Sys2Proof.Machine

/-- The directives of the catalogue (section 9.3). -/
inductive Directive
  | delay
  | lag
  | lead
  | stale
  | slew
  | layout
  | clear
  | handoff
  | flush
  | hold
  | resume
  | snapshot
  | restoreOpen
  | restoreCommit
  | restoreAbandon
  | cue
  | uncue
  | zeroCounts
  | restart
deriving DecidableEq, Repr

/-- The code of a directive (R183). -/
def codeOf (d : Directive) : BitVec 5 :=
  match d with
  | .delay => 0x01
  | .lag => 0x02
  | .lead => 0x03
  | .stale => 0x04
  | .slew => 0x05
  | .layout => 0x06
  | .clear => 0x07
  | .handoff => 0x08
  | .flush => 0x09
  | .hold => 0x0A
  | .resume => 0x0B
  | .snapshot => 0x0C
  | .restoreOpen => 0x0D
  | .restoreCommit => 0x0E
  | .restoreAbandon => 0x0F
  | .cue => 0x10
  | .uncue => 0x11
  | .zeroCounts => 0x12
  | .restart => 0x13

/-- The directive a code names; 0x00 and 0x14 to 0x1F name none (R183). -/
def directiveOf (code : BitVec 5) : Option Directive :=
  match code.toNat with
  | 0x01 => some .delay
  | 0x02 => some .lag
  | 0x03 => some .lead
  | 0x04 => some .stale
  | 0x05 => some .slew
  | 0x06 => some .layout
  | 0x07 => some .clear
  | 0x08 => some .handoff
  | 0x09 => some .flush
  | 0x0A => some .hold
  | 0x0B => some .resume
  | 0x0C => some .snapshot
  | 0x0D => some .restoreOpen
  | 0x0E => some .restoreCommit
  | 0x0F => some .restoreAbandon
  | 0x10 => some .cue
  | 0x11 => some .uncue
  | 0x12 => some .zeroCounts
  | 0x13 => some .restart
  | _ => none

/-- The parameter counts the Directive Unit accepts for a directive (R147, section 9.3). -/
def countAccepted (d : Directive) (n : Nat) : Bool :=
  match d with
  | .delay => n == 1
  | .lag => n == 2
  | .lead => n == 1
  | .stale => n == 1
  | .slew => n == 1
  | .layout => n == 4
  | .clear => n == 0
  | .handoff => n == 2
  | .flush => n == 1
  | .hold => n == 0
  | .resume => n == 0
  | .snapshot => n == 0
  | .restoreOpen => n == 0
  | .restoreCommit => n == 0
  | .restoreAbandon => n == 0
  | .cue => 5 ≤ n && n ≤ 7
  | .uncue => n == 1
  | .zeroCounts => n == 0
  | .restart => n == 0

/-- ZERO_COUNTS: every counter and the maximum lateness (R150). -/
def zeroCounts (s : State) : State :=
  { s with counters := Counters.zero, retiming := { s.retiming with maxLateness := 0 } }

/-- A lane after RESTART: its queue, serial, S_last and stack are emptied and a partial record is
dropped; the expected offset and the lags are kept (R151, R152). -/
def restartLane (l : LaneState) : LaneState :=
  { l with
    parser := { l.parser with staging := none }
    queue := [], nextSerial := 0, speechLast := none, stack := [] }

/-- RESTART (R151). -/
def restart (s : State) : State :=
  let s := { s with
    laneA := restartLane s.laneA
    laneB := restartLane s.laneB
    retiming := { s.retiming with speechTail := none }
    schedule := []
    composer := { s.composer with cells := [], groups := [], cursor := 0, spans := [] }
    floor := { state := .floorA, timer := 0 }
    cues := []
    image := ImageBuffer.clear
    service := .run }
  appendCells (placePair s.composer.layout) s

/-- The block that owns a directive carries it out (R147, step 3). -/
def directiveOwner (d : Directive) (tag : Byte) (params : List Word) (s : State) :
    State × Result :=
  let p := fun i => params.getD i 0
  match d with
  | .delay => setDelay (p 0) s
  | .lag => setLag (p 0) (p 1) s
  | .lead => setLead (p 0) s
  | .stale => setHorizon (p 0) s
  | .slew => setSlew (p 0) s
  | .layout => layoutDirective (p 0) (p 1) (p 2) (p 3) s
  | .clear => (clearWindow s, .done)
  | .handoff => handoff (p 0) (p 1) s
  | .flush => flush (p 0) s
  | .hold => holdService s
  | .resume => resumeService s
  | .snapshot => takeSnapshot s
  | .restoreOpen => openRestore s
  | .restoreCommit => commitRestore s
  | .restoreAbandon => abandonRestore s
  | .cue => cueDirective tag params s
  | .uncue => uncue (p 0) s
  | .zeroCounts => (zeroCounts s, .done)
  | .restart => (restart s, .done)

/-- The judgement of a record whose code names a directive (R147, steps 2 and 3). -/
def judgeDirective (d : Directive) (tag : Byte) (params : List Word) (s : State) :
    State × Result :=
  if countAccepted d params.length then directiveOwner d tag params s else (s, .malformed)

/-- An outcome is counted and raises attention (R149). -/
def settleOutcome (r : Result) (s : State) : State :=
  match r with
  | .done => s
  | .clamped => count .clamped s
  | .badImage => raise .badImage (raise .refusedDirective (count .refused s))
  | _ => raise .refusedDirective (count .refused s)

/-- The end of a directive's handling: the outcome is counted, and the last-outcome record is
overwritten with it and the stamp (R148, R149). -/
def finishDirective (code : BitVec 5) (tag : Byte) (r : State × Result) : State :=
  let s := settleOutcome r.2 r.1
  { s with lastOutcome := { tag := tag, code := code, result := r.2, stamp := s.timebase.e } }

/-- A record of a named directive, from its judgement to its outcome. -/
def carryOut (d : Directive) (tag : Byte) (params : List Word) (s : State) : State :=
  finishDirective (codeOf d) tag (judgeDirective d tag params s)

/-- A directive record commits (R146, R147). -/
def directiveRecord (code : BitVec 5) (tag : Byte) (params : List Word) (s : State) : State :=
  match directiveOf code with
  | none => finishDirective code tag (s, .unknown)
  | some d => carryOut d tag params s

end Sys2Proof.Machine
end

