-- ==== Sys2Proof/Machine/Records.lean ====
section
/-! DEFINITION. The Ring Parser: following a ring (R20 to R22), and the commit of records (R24 to
R29). -/

namespace Sys2Proof.Machine

/-! ### Commit of lane records -/

/-- How many of these characters are substituted (R27). -/
def substitutions (text : List Byte) : Nat := (text.filter fun c => !accepted c).length

/-- A lane record that has passed its first checks is dropped while the image buffer is FILLING
(R29), and else goes to its destination. -/
def unlessFilling (destination : State → State) (s : State) : State :=
  if s.image.state = .filling then count .droppedDuringRestore s else destination s

/-- A WORD record's text is cut and substituted, and makes a token (R27, R31). -/
def makeWord (x : Lane) (sentEnd attach : Bool) (length : BitVec 6) (chars : List Word)
    (s : State) : State :=
  let raw := charsOf chars (min length.toNat 32)
  let s := countIf .truncated (decide (32 < length.toNat)) s
  let s := countTimes .substituted (substitutions raw) s
  tokenRecord x .word sentEnd attach (raw.map substitute) s

/-- A WORD record commits (R26, R27, R29). -/
def commitWord (x : Lane) (sentEnd attach : Bool) (length : BitVec 6) (chars : List Word)
    (s : State) : State :=
  if length = 0 then count .empty s
  else unlessFilling (makeWord x sentEnd attach length chars) s

/-- A SPEAKER or BREAK record commits (R29, R31). -/
def commitPlain (x : Lane) (kind : TokenKind) (sentEnd attach : Bool) (s : State) : State :=
  unlessFilling (tokenRecord x kind sentEnd attach []) s

/-- A CORRECT record commits (R26, R28, R29). -/
def commitCorrect (x : Lane) (n : BitVec 6) (s : State) : State :=
  if n = 0 then count .empty s else unlessFilling (correctLane x n.toNat) s

/-- A lane record of unknown kind commits (R25). -/
def commitUnknown (s : State) : State := count .unknownKind s

/-- A lane record commits, by its kind (R24). -/
def commitLane (x : Lane) (header : Word) (body : List Word) (s : State) : State :=
  match (laneKind header).toNat with
  | 1 => commitWord x (laneSentEnd header) (laneAttach header) (laneLength header) body s
  | 2 => commitPlain x .speaker (laneSentEnd header) (laneAttach header) s
  | 3 => commitPlain x .paragraph (laneSentEnd header) (laneAttach header) s
  | 4 => commitCorrect x (laneLength header) s
  | _ => commitUnknown s

/-- A record commits and goes to its destination (R24). -/
def commitRecord (r : Ring) (header : Word) (body : List Word) (s : State) : State :=
  match r with
  | .lane x => commitLane x header body s
  | .directive => directiveRecord (directiveCode header) (directiveTag header) body s

/-! ### Following a ring -/

/-- The ring offset after this one, with wrap. -/
def nextOffset (r : Ring) (off : Nat) : Nat := (off + 1) % ringSize r

/-- A word is a header at its offset (R20). -/
def takeHeader (r : Ring) (off : Nat) (w : Word) (s : State) : State :=
  let n := wordsFollowing r w
  let next := nextOffset r off
  if n = 0 then commitRecord r w [] (setParser r { expected := next, staging := none } s)
  else
    let st : Staging := { header := w, body := [], toCome := n, startFrame := s.timebase.e }
    setParser r { expected := next, staging := some st } s

/-- A word is the next word of a staging record (R21). -/
def takeBody (r : Ring) (st : Staging) (off : Nat) (w : Word) (s : State) : State :=
  let next := nextOffset r off
  if st.toCome ≤ 1 then
    commitRecord r st.header (st.body ++ [w]) (setParser r { expected := next, staging := none } s)
  else
    let grown := { st with body := st.body ++ [w], toCome := st.toCome - 1 }
    setParser r { expected := next, staging := some grown } s

/-- A write away from the expected offset (R22). -/
def discontinuity (r : Ring) (off : Nat) (w : Word) (s : State) : State :=
  let s := setParser r { parserOf r s with staging := none } s
  takeHeader r off w (raise .ringDiscontinuity (count .discontinuities s))

/-- The parser of a ring follows a write (R20 to R22). -/
def followWrite (r : Ring) (off : Nat) (w : Word) (s : State) : State :=
  let p := parserOf r s
  if off ≠ p.expected then discontinuity r off w s
  else
    match p.staging with
    | none => takeHeader r off w s
    | some st => takeBody r st off w s

end Sys2Proof.Machine
end

