-- ==== Sys2Proof/Machine/Emission.lean ====
section
/-! DEFINITION. The Emission Unit: the offered view (R118, R119), the take (R120, R121), lateness
(R52), reads of the emission window (R116, R122, R123) and the frame end (R124 to R126). -/

namespace Sys2Proof.Machine

/-- The current frame has a take: the take of the frame equals the current E (R117). -/
def hasTake (s : State) : Bool := s.emission.take == some s.timebase.e

/-- How many cells the view offers (R118). -/
def viewCount (s : State) : Nat := min 6 s.composer.cells.length

/-- The header word of the view (R119, R184). -/
def viewHeader (s : State) : Word :=
  s.emission.blockSeq ++ BitVec.ofNat 3 (viewCount s) ++
    BitVec.ofBool (s.service == .held) ++ BitVec.ofBool (s.timebase.state == .freewheel) ++
    BitVec.ofBool s.emission.carry ++ s.timebase.e.extractLsb' 0 6

/-- Words 1 to 6 of the view: the first cells of the queue, then NULL (R118). -/
def viewCells (s : State) : List Word :=
  (s.composer.cells.take 6).map cellWord ++ List.replicate (6 - viewCount s) nullWord

/-- The offered view: eight words that sum to 0 (R118, R119). -/
def offeredView (s : State) : List Word :=
  let ws := viewHeader s :: viewCells s
  ws ++ [checkWord ws]

/-- What a read of word `i` of the emission window returns: the taken block while the frame has a
take, else the view (R118, R122). -/
def emissionWord (i : BitVec 3) (s : State) : Word :=
  (if hasTake s then s.emission.takenBlock else offeredView s).getD i.toNat 0

/-! ### The take -/

/-- The lateness of a completed group is measured (R52). -/
def measureLateness (speech arrival : Frame) (s : State) : State :=
  let lateness := frameDiff s.timebase.e (dueFrame s.retiming speech arrival)
  let s := countIf .lateTokens (decide (0 < lateness)) s
  { s with retiming :=
      { s.retiming with maxLateness := max s.retiming.maxLateness (min lateness.toNat 65535) } }

/-- The front group after one of its cells, of these columns, is taken (R77). -/
def advanceGroup (columns : Nat) (g : GroupRecord) : GroupRecord :=
  { g with taken := g.taken + 1, columnsTaken := g.columnsTaken + columns }

/-- What follows the take of the last cell of a group (R121). -/
def completeGroup (g : GroupRecord) (s : State) : State :=
  let s := notice g.id tagLastTaken s
  match g.counts with
  | none => s
  | some (speech, arrival) => measureLateness speech arrival s

/-- A group cell of the front group is taken: its record advances, or is removed when this was its
last cell, and the notices are sent, first-cell before last-cell (R77, R121). -/
def takeGroupCell (columns : Nat) (s : State) : State :=
  match s.composer.groups with
  | [] => s
  | g :: rest =>
    let h := advanceGroup columns g
    let s := if g.taken = 0 then notice g.id tagFirstTaken s else s
    if h.taken < h.composed then { s with composer := { s.composer with groups := h :: rest } }
    else completeGroup g { s with composer := { s.composer with groups := rest } }

/-- Up to `n` cells leave the front of the cell queue (R77, R121). -/
def takeCells (n : Nat) (s : State) : State :=
  match n with
  | 0 => s
  | m + 1 =>
    match s.composer.cells with
    | [] => s
    | c :: rest =>
      let s := { s with composer := { s.composer with cells := rest } }
      takeCells m (if isGroupCell c then takeGroupCell (cellColumns c) s else s)

/-- The take: the view is frozen, its cells leave the queue and the sequence advances (R120). -/
def takeBlock (s : State) : State :=
  let block := offeredView s
  let n := viewCount s
  let s := { s with emission :=
    { s.emission with take := some s.timebase.e, takenBlock := block } }
  let s := takeCells n s
  { s with emission := { s.emission with blockSeq := s.emission.blockSeq + 1 } }

/-- What a read of the emission window does to the part: the inserter's read of word 0 is a take, or
a reread when the frame has one; every other read changes nothing (R116, R122, R123). -/
def emissionRead (requester : Requester) (i : BitVec 3) (s : State) : State :=
  match requester with
  | .processor => s
  | .inserter =>
    if i ≠ 0 then s
    else if hasTake s then count .rereads s
    else takeBlock s

/-! ### Frame end -/

/-- The frame just ended is judged: it is missed when it had no take while cells were held (R125).
`ended` is its E. -/
def judgeFrame (ended : Frame) (s : State) : State :=
  let missed := s.emission.take != some ended && s.emission.heldEnded
  let s := countIf .missedFrames missed s
  { s with emission := { s.emission with carry := missed } }

end Sys2Proof.Machine
end

