-- ==== Sys2Proof/Machine/Frame.lean ====
section
/-! DEFINITION. The frame event (R7) with every block's reaction to it, and the events of the
reference: FP edges (R2, R3, R6), the deadline (R4) and the next pulse (R5). -/

namespace Sys2Proof.Machine

/-! ### Stall checks (R23) -/

/-- The staging record of this parser has its header two frame events back. -/
def stalledAt (e : Frame) (p : Parser) : Bool :=
  match p.staging with
  | none => false
  | some st => e == st.startFrame + 2

/-- A ring's stall check (R23). -/
def stallCheck (r : Ring) (s : State) : State :=
  if stalledAt s.timebase.e (parserOf r s) then
    raise .stalledRecord
      (count .stalled (setParser r { parserOf r s with staging := none } s))
  else s

/-- The stall checks of the three parsers. -/
def stallChecks (s : State) : State :=
  stallCheck .directive (stallCheck (.lane .b) (stallCheck (.lane .a) s))

/-! ### The frame event -/

/-- E advances, the old frame's held-cells mark is put aside and the new frame's begins with whether
the queue holds a cell (R7, R124). -/
def advanceE (s : State) : State :=
  { s with
    timebase := { s.timebase with e := s.timebase.e + 1 }
    emission := { s.emission with heldEnded := s.emission.heldCurrent
                                  heldCurrent := !s.composer.cells.isEmpty } }

/-- A frame opens: E, the frame end of the frame just ended (none when `closes` is false, R126), the
new frame's timecode, the cues a JUMP retires, and the stall checks. -/
def openFrame (closes : Bool) (s : State) : State :=
  let ended := s.timebase.e
  let s := advanceE s
  let s := if closes then judgeFrame ended s else s
  stallChecks (retireStale (openTimecode s))

/-- The three reactions whose order counts, in the order asked for (log 3). -/
def reactionsOf (p : TimerPlace) : (State → State) × (State → State) × (State → State) :=
  match p with
  | .beforeSlew => (passTimerStep, slewStep, releasePass)
  | .beforeRelease => (slewStep, passTimerStep, releasePass)
  | .afterRelease => (slewStep, releasePass, passTimerStep)

/-- The cues, the slew step, the pass timer and the release pass react, in the order asked for. -/
def react (o : FrameOrder) (s : State) : State :=
  let rs := reactionsOf o.timer
  let s := rs.1 (fireSome o.cuesFirst s)
  let s := rs.2.1 (fireSome o.cuesSecond s)
  fireAll (rs.2.2 (fireSome o.cuesThird s))

/-- A frame event: the frame opens and the blocks react to it (R7). -/
def frameEvent (o : FrameOrder) (closes : Bool) (s : State) : State := react o (openFrame closes s)

/-! ### The reference -/

/-- The deadline is reached in LOCKED at this moment (R4). -/
def deadlineReached (o : FrameOrder) (moment : Nat) (s : State) : State :=
  let s := { s with timebase := { s.timebase with
    state := .freewheel, now := moment, deadline := none, lastInternal := some moment,
    nextPulse := some (moment + nominalPeriod (rateOf s.rate)) } }
  frameEvent o true (raise .freewheelEntry (count .freewheelEntries s))

/-- The next pulse is reached in FREEWHEEL at this moment (R5). -/
def pulseReached (o : FrameOrder) (moment : Nat) (s : State) : State :=
  frameEvent o true { s with timebase := { s.timebase with
    now := moment, lastInternal := some moment,
    nextPulse := some (moment + nominalPeriod (rateOf s.rate)) } }

/-- The moment of the next internal frame event: the deadline in LOCKED, the next pulse in FREEWHEEL,
none in ABSENT. -/
def internalMoment (tb : Timebase) : Option Nat :=
  match tb.state with
  | .absent => none
  | .locked => tb.deadline
  | .freewheel => tb.nextPulse

/-- The internal frame event whose moment is reached (R4, R5); nothing in ABSENT (R2). -/
def internalEvent (o : FrameOrder) (moment : Nat) (s : State) : State :=
  match s.timebase.state with
  | .absent => s
  | .locked => deadlineReached o moment s
  | .freewheel => pulseReached o moment s

/-- The clock runs toward a moment: every internal frame event that comes before it takes place, at
most `fuel` of them (log 6). -/
def runClock (fuel : Nat) (o : FrameOrder) (moment : Nat) (s : State) : State :=
  match fuel with
  | 0 => s
  | k + 1 =>
    match internalMoment s.timebase with
    | none => s
    | some m => if m < moment then runClock k o moment (internalEvent o m s) else s

/-- An edge at this moment is absorbed: in FREEWHEEL, sooner than one absorb window after the last
internal frame event (R6). -/
def edgeAbsorbed (moment : Nat) (s : State) : Bool :=
  match s.timebase.state, s.timebase.lastInternal with
  | .freewheel, some last => moment < last + absorbWindow (rateOf s.rate)
  | _, _ => false

/-- The timebase after an edge at this moment: LOCKED, with a new deadline and no next pulse
(R2, R3, R6). -/
def lockAt (moment : Nat) (s : State) : State :=
  { s with timebase := { s.timebase with
    state := .locked, now := moment, nextPulse := none,
    deadline := some (moment + freewheelDelay (rateOf s.rate)) } }

/-- An FP edge at this moment (R2, R3, R6). The first edge after the reset pin closes no frame
(R126). -/
def edgeAt (o : FrameOrder) (moment : Nat) (s : State) : State :=
  let closes := s.timebase.state ≠ .absent
  if edgeAbsorbed moment s then lockAt moment s
  else frameEvent o (decide closes) (lockAt moment s)

/-- An FP edge this many clocks after the moment the timebase stands at; the internal frame events
that come before it take place first (log 6). -/
def edgeAfter (elapsed : Nat) (o : FrameOrder) (s : State) : State :=
  let moment := s.timebase.now + elapsed
  edgeAt o moment (runClock (elapsed / nominalPeriod (rateOf s.rate) + 2) o moment s)

end Sys2Proof.Machine
end

