-- ==== Sys2Proof/Machine/Reference.lean ====
section
/-! DEFINITION. The meanings of the commands of the reset pin, the station reference and the clock:
RESET_ASSERT, RESET_RELEASE, FP_EDGE, FREEWHEEL_DEADLINE, NEXT_PULSE, TIMECODE_WORD, SLEW_TICK,
RECORD_STALL, PASS_TIMER_EXPIRY, CUE_FIRE. -/

namespace Sys2Proof.Machine

/-- The next state that an operation gives. -/
def done (s : State) : Host.Outcome State Fault Refusal := .next s

/-- What an event does while RESET is high; while it is low the part watches nothing (R180, log 8). -/
def whileReleased (f : State → State) (s : State) : State := if s.resetLow then s else f s

/-- What a part of a frame event does when it is sent alone: there are no frame events in ABSENT
(R2, log 4). -/
def outsideAbsent (f : State → State) (s : State) : State :=
  if s.timebase.state = .absent then s else f s

/-- RESET_ASSERT (R180): nothing is watched from now on, and the pending word and any framing in
progress are given up (R8). -/
def execResetAssert (s : State) : Host.Outcome State Fault Refusal :=
  done { s with
    resetLow := true
    timebase := { s.timebase with pendingWord := none, framing := none } }

/-- RESET_RELEASE (R180): the straps are sampled and every block takes its reset values. What stands
in the SRAM and the commands waiting are not the part's. -/
def execResetRelease (span : BitVec 5) (rate : BitVec 2) (s : State) :
    Host.Outcome State Fault Refusal :=
  done { State.atRelease span rate with sram := s.sram, pending := s.pending }

/-- FP_EDGE (R2, R3, R6). -/
def execFpEdge (elapsed : Nat) (order : FrameOrder) (s : State) :
    Host.Outcome State Fault Refusal :=
  done (whileReleased (edgeAfter elapsed order) s)

/-- The deadline is reached: only in LOCKED does one run (R2, R4, log 7). -/
def reachDeadline (order : FrameOrder) (s : State) : State :=
  match s.timebase.state, s.timebase.deadline with
  | .locked, some moment => deadlineReached order moment s
  | _, _ => s

/-- FREEWHEEL_DEADLINE (R4). -/
def execFreewheelDeadline (order : FrameOrder) (s : State) : Host.Outcome State Fault Refusal :=
  done (whileReleased (reachDeadline order) s)

/-- The next pulse is reached: only in FREEWHEEL is one set (R5, log 7). -/
def reachPulse (order : FrameOrder) (s : State) : State :=
  match s.timebase.state, s.timebase.nextPulse with
  | .freewheel, some moment => pulseReached order moment s
  | _, _ => s

/-- NEXT_PULSE (R5). -/
def execNextPulse (order : FrameOrder) (s : State) : Host.Outcome State Fault Refusal :=
  done (whileReleased (reachPulse order) s)

/-- TIMECODE_WORD (R8, R185). -/
def execTimecodeWord (bits : List Bool) (falls : Bool) (s : State) :
    Host.Outcome State Fault Refusal :=
  done (whileReleased (fun s => { s with timebase := receiveBits bits falls s.timebase }) s)

/-- SLEW_TICK (R44), sent alone: the tick of a ticker that stands one short of P (log 4). -/
def execSlewTick (s : State) : Host.Outcome State Fault Refusal :=
  done (whileReleased (outsideAbsent fun s => if tickerWraps s then slewTick s else s) s)

/-- RECORD_STALL (R23), sent alone: the stall check of one ring at the current E (log 4). -/
def execRecordStall (ring : Ring) (s : State) : Host.Outcome State Fault Refusal :=
  done (whileReleased (outsideAbsent (stallCheck ring)) s)

/-- PASS_TIMER_EXPIRY (R136), sent alone: the pass timer's step when it brings the timer to 0
(log 4). -/
def execPassTimerExpiry (s : State) : Host.Outcome State Fault Refusal :=
  done (whileReleased (outsideAbsent fun s =>
    if s.floor.timer ≤ 1 then passTimerStep s else s) s)

/-- CUE_FIRE (R157), sent alone: the oldest cue that is due fires (log 4). -/
def execCueFire (s : State) : Host.Outcome State Fault Refusal :=
  done (whileReleased (outsideAbsent fireOldest) s)

end Sys2Proof.Machine
end

