-- ==== Sys2Proof/Machine/Commits.lean ====
section
/-! DEFINITION. The meanings of the commands that are a lane record at its commit: WORD_RECORD,
SPEAKER_RECORD, BREAK_RECORD, UNKNOWN_KIND, CORRECT (log 5). -/

namespace Sys2Proof.Machine

/-- WORD_RECORD (R26, R27, R29, R31). -/
def execWordRecord (lane : Lane) (sentEnd attach : Bool) (length : BitVec 6) (chars : List Word)
    (s : State) : Host.Outcome State Fault Refusal :=
  done (whileReleased (commitWord lane sentEnd attach length chars) s)

/-- SPEAKER_RECORD (R31). -/
def execSpeakerRecord (lane : Lane) (sentEnd attach : Bool) (s : State) :
    Host.Outcome State Fault Refusal :=
  done (whileReleased (commitPlain lane .speaker sentEnd attach) s)

/-- BREAK_RECORD (R31). -/
def execBreakRecord (lane : Lane) (sentEnd attach : Bool) (s : State) :
    Host.Outcome State Fault Refusal :=
  done (whileReleased (commitPlain lane .paragraph sentEnd attach) s)

/-- UNKNOWN_KIND (R25): the same for every lane and every unknown kind. -/
def execUnknownKind (_lane : Lane) (_kind : BitVec 4) (s : State) :
    Host.Outcome State Fault Refusal :=
  done (whileReleased commitUnknown s)

/-- CORRECT (R26, R28, R103). -/
def execCorrect (lane : Lane) (n : BitVec 6) (s : State) : Host.Outcome State Fault Refusal :=
  done (whileReleased (commitCorrect lane n) s)

end Sys2Proof.Machine
end

