-- ==== Sys2Proof/Machine/DirectiveCommands.lean ====
section
/-! DEFINITION. The meanings of the commands that are a directive record at its commit (log 5): each
is judged by R147, carried out by its owner, and its outcome recorded and counted (R148, R149). -/

namespace Sys2Proof.Machine

/-- DELAY (R38). -/
def execDelay (tag : Byte) (params : List Word) (s : State) : Host.Outcome State Fault Refusal :=
  done (whileReleased (carryOut .delay tag params) s)

/-- LAG (R39). -/
def execLag (tag : Byte) (params : List Word) (s : State) : Host.Outcome State Fault Refusal :=
  done (whileReleased (carryOut .lag tag params) s)

/-- LEAD (R40). -/
def execLead (tag : Byte) (params : List Word) (s : State) : Host.Outcome State Fault Refusal :=
  done (whileReleased (carryOut .lead tag params) s)

/-- STALE (R41). -/
def execStale (tag : Byte) (params : List Word) (s : State) : Host.Outcome State Fault Refusal :=
  done (whileReleased (carryOut .stale tag params) s)

/-- SLEW (R42, R16). -/
def execSlew (tag : Byte) (params : List Word) (s : State) : Host.Outcome State Fault Refusal :=
  done (whileReleased (carryOut .slew tag params) s)

/-- LAYOUT (R86). -/
def execLayout (tag : Byte) (params : List Word) (s : State) : Host.Outcome State Fault Refusal :=
  done (whileReleased (carryOut .layout tag params) s)

/-- CLEAR (R88). -/
def execClear (tag : Byte) (params : List Word) (s : State) : Host.Outcome State Fault Refusal :=
  done (whileReleased (carryOut .clear tag params) s)

/-- HANDOFF (R133 to R135). -/
def execHandoff (tag : Byte) (params : List Word) (s : State) : Host.Outcome State Fault Refusal :=
  done (whileReleased (carryOut .handoff tag params) s)

/-- FLUSH (R143). -/
def execFlush (tag : Byte) (params : List Word) (s : State) : Host.Outcome State Fault Refusal :=
  done (whileReleased (carryOut .flush tag params) s)

/-- HOLD (R163). -/
def execHold (tag : Byte) (params : List Word) (s : State) : Host.Outcome State Fault Refusal :=
  done (whileReleased (carryOut .hold tag params) s)

/-- RESUME (R164). -/
def execResume (tag : Byte) (params : List Word) (s : State) : Host.Outcome State Fault Refusal :=
  done (whileReleased (carryOut .resume tag params) s)

/-- SNAPSHOT (R166). -/
def execSnapshot (tag : Byte) (params : List Word) (s : State) : Host.Outcome State Fault Refusal :=
  done (whileReleased (carryOut .snapshot tag params) s)

/-- RESTORE_OPEN (R171). -/
def execRestoreOpen (tag : Byte) (params : List Word) (s : State) : Host.Outcome State Fault Refusal :=
  done (whileReleased (carryOut .restoreOpen tag params) s)

/-- RESTORE_ABANDON (R172). -/
def execRestoreAbandon (tag : Byte) (params : List Word) (s : State) : Host.Outcome State Fault Refusal :=
  done (whileReleased (carryOut .restoreAbandon tag params) s)

/-- RESTORE_COMMIT (R173, R174). -/
def execRestoreCommit (tag : Byte) (params : List Word) (s : State) : Host.Outcome State Fault Refusal :=
  done (whileReleased (carryOut .restoreCommit tag params) s)

/-- CUE (R154, R155). -/
def execCue (tag : Byte) (params : List Word) (s : State) : Host.Outcome State Fault Refusal :=
  done (whileReleased (carryOut .cue tag params) s)

/-- UNCUE (R160). -/
def execUncue (tag : Byte) (params : List Word) (s : State) : Host.Outcome State Fault Refusal :=
  done (whileReleased (carryOut .uncue tag params) s)

/-- ZERO_COUNTS (R150). -/
def execZeroCounts (tag : Byte) (params : List Word) (s : State) : Host.Outcome State Fault Refusal :=
  done (whileReleased (carryOut .zeroCounts tag params) s)

/-- RESTART (R151). -/
def execRestart (tag : Byte) (params : List Word) (s : State) : Host.Outcome State Fault Refusal :=
  done (whileReleased (carryOut .restart tag params) s)

/-- UNKNOWN_DIRECTIVE (R147): a record is judged by its code; one that names no directive is answered
UNKNOWN. -/
def execUnknownDirective (code : BitVec 5) (tag : Byte) (params : List Word) (s : State) :
    Host.Outcome State Fault Refusal :=
  done (whileReleased (directiveRecord code tag params) s)

end Sys2Proof.Machine
end

