-- ==== Sys2Proof/Machine/Report.lean ====
section
/-! DEFINITION. The report window (R182, section 11.5) and the attention summary (R181). -/

namespace Sys2Proof.Machine

/-- Timebase states in report word 1. -/
def timebaseCode (t : TimebaseState) : Nat :=
  match t with
  | .absent => 0
  | .locked => 1
  | .freewheel => 2

/-- Service states in report word 1. -/
def serviceCode (t : Service) : Nat :=
  match t with
  | .run => 0
  | .held => 1

/-- Image buffer states in report word 1. -/
def bufferCode (b : BufferState) : Nat :=
  match b with
  | .empty => 0
  | .snapshot => 1
  | .filling => 2

/-- Timecode classes in report word 6. -/
def classCode (c : TimecodeClass) : Nat :=
  match c with
  | .nextFrame => 0
  | .repeatFrame => 1
  | .jump => 2
  | .invalid => 3
  | .missing => 4

/-- Outcome codes in report word 28. -/
def outcomeCode (r : Result) : Nat :=
  match r with
  | .done => 0
  | .clamped => 1
  | .unknown => 2
  | .malformed => 3
  | .range => 4
  | .state => 5
  | .full => 6
  | .past => 7
  | .noTimecode => 8
  | .busy => 9
  | .same => 10
  | .badImage => 11

/-- The S of the schedule head, 0 when the schedule is empty (R71). -/
def headSpeech (s : State) : Frame :=
  match s.schedule with
  | [] => 0
  | t :: _ => t.speech

/-- The due of the schedule head, 0 when the schedule is empty (R71). -/
def headDue (s : State) : Frame :=
  match s.schedule with
  | [] => 0
  | t :: _ => tokenDue t s

/-- The high word of a pair of the schedule head: its latch, and 0 when the schedule is empty (R71,
R182, log 25). -/
def headHigh (latch : Word) (s : State) : Word :=
  match s.schedule with
  | [] => 0
  | _ :: _ => latch

/-- The label of the current N, 00:00:00:00 while it is not known (R17). -/
def shownLabel (s : State) : Label :=
  if s.timebase.known then labelOf (rateOf s.rate) s.timebase.n
  else { h := 0, m := 0, s := 0, f := 0 }

/-- Report word 1: the four states. -/
def stateWord (s : State) : Word :=
  wordOf (timebaseCode s.timebase.state + 16 * serviceCode s.service +
    256 * floorCode s.floor.state + 4096 * bufferCode s.image.state)

/-- The counters in the order of report words 33 to 58. -/
def counterWords (k : Counters) : List Word :=
  [k.discontinuities, k.stalled, k.unknownKind, k.empty, k.substituted, k.truncated, k.bunched,
   k.laneOverrun, k.standbyShed, k.trimmed, k.stale, k.lateTokens, k.lateCorrections,
   k.underflows, k.missedFrames, k.rereads, k.freewheelEntries, k.timecodeInvalid,
   k.timecodeMissing, k.timecodeJump, k.refused, k.clamped, k.cuesFired, k.cuesStale,
   k.cueActionsRefused, k.droppedDuringRestore]

/-- Words 0 to 32 of the report window. -/
def reportHead (s : State) : List Word :=
  let label := shownLabel s
  [s.attention.zeroExtend 16,
   stateWord s,
   lowWord s.timebase.e, s.latches.e,
   pairWord label.h label.m, pairWord label.s label.f,
   s.timebase.epoch ++ BitVec.ofNat 8 (classCode s.timebase.cls),
   wordOf s.retiming.delayTarget, wordOf s.retiming.delayEff,
   wordOf s.laneA.lagTarget, wordOf s.laneA.lagEff,
   wordOf s.laneB.lagTarget, wordOf s.laneB.lagEff,
   wordOf s.retiming.lead, wordOf s.retiming.horizon, wordOf (slewCode s.retiming.slewMode),
   layoutWord s.composer.layout, wordOf s.composer.layout.width,
   pairWord s.laneA.queue.length s.laneB.queue.length,
   wordOf s.schedule.length, wordOf s.composer.cells.length,
   pairWord s.laneA.stack.length s.laneB.stack.length,
   wordOf s.cues.length,
   lowWord (headSpeech s), headHigh s.latches.headSpeech s,
   lowWord (headDue s), headHigh s.latches.headDue s,
   wordOf s.composer.cursor,
   pairWord (outcomeCode s.lastOutcome.result) s.lastOutcome.tag.toNat,
   s.lastOutcome.code.zeroExtend 16,
   lowWord s.lastOutcome.stamp, highWord s.lastOutcome.stamp,
   wordOf s.retiming.maxLateness]

/-- Word `n` of the report window; words 59 to 63 read 0 (section 11.5). -/
def reportWord (n : BitVec 6) (s : State) : Word :=
  (reportHead s ++ counterWords s.counters).getD n.toNat 0

/-- What a processor read of a report word changes: word 0 clears the attention bits, and a low word
of a latched pair loads its latch (R182). -/
def reportRead (n : BitVec 6) (s : State) : State :=
  match n.toNat with
  | 0 => { s with attention := 0 }
  | 2 => { s with latches := { s.latches with e := highWord s.timebase.e } }
  | 23 => { s with latches := { s.latches with headSpeech := highWord (headSpeech s) } }
  | 25 => { s with latches := { s.latches with headDue := highWord (headDue s) } }
  | _ => s

end Sys2Proof.Machine
end

