-- ==== Sys2Proof/Machine/Bus.lean ====
section
/-! DEFINITION. The Span Interface: the decoding of an access against the caption span (R177) and
its treatment by window, requester and direction (R178, R179). -/

namespace Sys2Proof.Machine

/-- The windows of the caption span (00_scope.md section 3, R178). -/
inductive Window
  | ring (r : Ring) (off : Nat)
  | emission (i : BitVec 3)
  | report (n : BitVec 6)
  | contextPort
  | restorePort
  | plain
deriving DecidableEq, Repr

/-- The window that a span offset lies in. -/
def windowAt (off : Nat) : Window :=
  if off < 0x1000 then .ring (.lane .a) off
  else if off < 0x2000 then .ring (.lane .b) (off - 0x1000)
  else if off < 0x2400 then .ring .directive (off - 0x2000)
  else if off < 0x2408 then .emission (BitVec.ofNat 3 (off - 0x2400))
  else if off < 0x2410 then .plain
  else if off < 0x2450 then .report (BitVec.ofNat 6 (off - 0x2410))
  else if off = 0x2450 then .contextPort
  else if off = 0x2451 then .restorePort
  else .plain

/-- The window of a word address: an access lies in the span when bits 19 to 15 of its address equal
the sampled strap (R177). While RESET is low nothing is decoded (R180). -/
def windowOf (ma : BitVec 20) (s : State) : Window :=
  if s.resetLow ∨ ma.extractLsb' 15 5 ≠ s.span then .plain
  else windowAt (ma.extractLsb' 0 15).toNat

/-- The word address of a span offset (R177). -/
def spanAddress (off : BitVec 15) (s : State) : BitVec 20 := s.span ++ off

/-- A write passed to the SRAM (R179). -/
def passWrite (ma : BitVec 20) (data : Word) (s : State) : State :=
  { s with sram := Memory.write s.sram ma.toNat data, busOut := .passedWrite }

/-- A read passed to the SRAM (R179). -/
def passRead (ma : BitVec 20) (s : State) : State :=
  { s with busOut := .passedRead (Memory.read s.sram ma.toNat) }

/-- A read the part answers with this word (R178). -/
def answer (w : Word) (s : State) : State := { s with busOut := .answered w }

/-- A write access: it always reaches the SRAM, and a processor write to a ring or to the restore
port is also handed to its block (R178). -/
def busWrite (requester : Requester) (ma : BitVec 20) (data : Word) (s : State) : State :=
  let passed := passWrite ma data s
  match requester, windowOf ma s with
  | .processor, .ring r off => followWrite r off data passed
  | .processor, .restorePort => { passed with image := collectWord data passed.image }
  | _, _ => passed

/-- A read access (R178). -/
def busRead (requester : Requester) (ma : BitVec 20) (s : State) : State :=
  match requester, windowOf ma s with
  | .processor, .emission i => answer (emissionWord i s) s
  | .inserter, .emission i => let s := emissionRead .inserter i s; answer (emissionWord i s) s
  | .processor, .report n => answer (reportWord n s) (reportRead n s)
  | .inserter, .report _ => answer 0 s
  | .processor, .contextPort =>
    answer (contextWord s.image) { s with image := contextAdvance s.image }
  | _, _ => passRead ma s

/-- The span offset of word `i` of the emission window. -/
def emissionOffset (i : BitVec 3) : BitVec 15 := 0x2400 + i.zeroExtend 15

/-- The span offset of word `n` of the report window. -/
def reportOffset (n : BitVec 6) : BitVec 15 := 0x2410 + n.zeroExtend 15

/-- The span offset of the context port. -/
def contextOffset : BitVec 15 := 0x2450

/-- The span offset of the restore port. -/
def restoreOffset : BitVec 15 := 0x2451

end Sys2Proof.Machine
end

