-- ==== Sys2Proof/Machine/Port.lean ====
section
/-! DEFINITION. The meanings of the commands that are an access to the memory port: RING_WRITE,
PASSED_WRITE, TAKE, REREAD, ATTENTION_SUMMARY_READ, LATCHED_LOW_READ, CONTEXT_PORT_READ,
RESTORE_PORT_WRITE. What an access does follows from its address, requester and direction alone
(R178, logs 12 and 13). -/

namespace Sys2Proof.Machine

/-- RING_WRITE (R18, R178): a processor write. -/
def execRingWrite (ma : BitVec 20) (data : Word) (s : State) : Host.Outcome State Fault Refusal :=
  done (busWrite .processor ma data s)

/-- PASSED_WRITE (R178, R179): a write by either requester. -/
def execPassedWrite (requester : Requester) (ma : BitVec 20) (data : Word) (s : State) :
    Host.Outcome State Fault Refusal :=
  done (busWrite requester ma data s)

/-- TAKE (R120): a read of the emission window, which is a take when the inserter reads word 0 in a
frame that has none. -/
def execTake (requester : Requester) (word : BitVec 3) (s : State) :
    Host.Outcome State Fault Refusal :=
  done (busRead requester (spanAddress (emissionOffset word) s) s)

/-- REREAD (R122): a read of the emission window, which is a reread when the inserter reads word 0 in
a frame that has a take. -/
def execReread (requester : Requester) (word : BitVec 3) (s : State) :
    Host.Outcome State Fault Refusal :=
  done (busRead requester (spanAddress (emissionOffset word) s) s)

/-- ATTENTION_SUMMARY_READ (R181): a read of report word 0. -/
def execAttentionSummaryRead (requester : Requester) (s : State) :
    Host.Outcome State Fault Refusal :=
  done (busRead requester (spanAddress (reportOffset 0) s) s)

/-- LATCHED_LOW_READ (R182): a read of a report word. -/
def execLatchedLowRead (requester : Requester) (word : BitVec 6) (s : State) :
    Host.Outcome State Fault Refusal :=
  done (busRead requester (spanAddress (reportOffset word) s) s)

/-- CONTEXT_PORT_READ (R170): a read of the context port. -/
def execContextPortRead (requester : Requester) (s : State) : Host.Outcome State Fault Refusal :=
  done (busRead requester (spanAddress contextOffset s) s)

/-- RESTORE_PORT_WRITE (R171): a write to the restore port. -/
def execRestorePortWrite (requester : Requester) (data : Word) (s : State) :
    Host.Outcome State Fault Refusal :=
  done (busWrite requester (spanAddress restoreOffset s) data s)

end Sys2Proof.Machine
end

