-- ==== Sys2Proof/Machine/Dispatch.lean ====
section
/-! DEFINITION. One arm per command: each is one direct call of its meaning. -/

namespace Sys2Proof.Machine

/-- The effect of a command on everything but the queue of commands. -/
def exec (i : Instr) (s : State) : Host.Outcome State Fault Refusal :=
  match i with
  | .resetAssert => Sys2Proof.Machine.execResetAssert s
  | .resetRelease span rate => Sys2Proof.Machine.execResetRelease span rate s
  | .fpEdge elapsed order => Sys2Proof.Machine.execFpEdge elapsed order s
  | .freewheelDeadline order => Sys2Proof.Machine.execFreewheelDeadline order s
  | .nextPulse order => Sys2Proof.Machine.execNextPulse order s
  | .timecodeWord bits falls => Sys2Proof.Machine.execTimecodeWord bits falls s
  | .slewTick => Sys2Proof.Machine.execSlewTick s
  | .recordStall ring => Sys2Proof.Machine.execRecordStall ring s
  | .passTimerExpiry => Sys2Proof.Machine.execPassTimerExpiry s
  | .cueFire => Sys2Proof.Machine.execCueFire s
  | .ringWrite ma data => Sys2Proof.Machine.execRingWrite ma data s
  | .wordRecord lane sentEnd attach length chars => Sys2Proof.Machine.execWordRecord lane sentEnd attach length chars s
  | .speakerRecord lane sentEnd attach => Sys2Proof.Machine.execSpeakerRecord lane sentEnd attach s
  | .breakRecord lane sentEnd attach => Sys2Proof.Machine.execBreakRecord lane sentEnd attach s
  | .unknownKind lane kind => Sys2Proof.Machine.execUnknownKind lane kind s
  | .correct lane n => Sys2Proof.Machine.execCorrect lane n s
  | .passedWrite requester ma data => Sys2Proof.Machine.execPassedWrite requester ma data s
  | .take requester word => Sys2Proof.Machine.execTake requester word s
  | .reread requester word => Sys2Proof.Machine.execReread requester word s
  | .attentionSummaryRead requester => Sys2Proof.Machine.execAttentionSummaryRead requester s
  | .latchedLowRead requester word => Sys2Proof.Machine.execLatchedLowRead requester word s
  | .contextPortRead requester => Sys2Proof.Machine.execContextPortRead requester s
  | .restorePortWrite requester data => Sys2Proof.Machine.execRestorePortWrite requester data s
  | .delay tag params => Sys2Proof.Machine.execDelay tag params s
  | .lag tag params => Sys2Proof.Machine.execLag tag params s
  | .lead tag params => Sys2Proof.Machine.execLead tag params s
  | .stale tag params => Sys2Proof.Machine.execStale tag params s
  | .slew tag params => Sys2Proof.Machine.execSlew tag params s
  | .layout tag params => Sys2Proof.Machine.execLayout tag params s
  | .clear tag params => Sys2Proof.Machine.execClear tag params s
  | .handoff tag params => Sys2Proof.Machine.execHandoff tag params s
  | .flush tag params => Sys2Proof.Machine.execFlush tag params s
  | .hold tag params => Sys2Proof.Machine.execHold tag params s
  | .resume tag params => Sys2Proof.Machine.execResume tag params s
  | .snapshot tag params => Sys2Proof.Machine.execSnapshot tag params s
  | .restoreOpen tag params => Sys2Proof.Machine.execRestoreOpen tag params s
  | .restoreAbandon tag params => Sys2Proof.Machine.execRestoreAbandon tag params s
  | .restoreCommit tag params => Sys2Proof.Machine.execRestoreCommit tag params s
  | .cue tag params => Sys2Proof.Machine.execCue tag params s
  | .uncue tag params => Sys2Proof.Machine.execUncue tag params s
  | .zeroCounts tag params => Sys2Proof.Machine.execZeroCounts tag params s
  | .restart tag params => Sys2Proof.Machine.execRestart tag params s
  | .unknownDirective code tag params => Sys2Proof.Machine.execUnknownDirective code tag params s

end Sys2Proof.Machine
end

