-- ==== Sys2Proof/Safety.lean ====
section
/-! DEFINITION. What holds of the part at every moment: the bounds and agreements that the spec
states of its blocks. Each holds after the reset pin and is meant to be kept by every step. -/

namespace Sys2Proof.Safety

open Sys2Proof.Machine

/-- The card's SRAM stands in its one canonical form. -/
abbrev SramHolds (s : State) : Prop := s.sram.wf = true

/-- Settings and effective values lie in their ranges (R37, R43, R53), and the layout in force is
valid (R73). -/
abbrev SettingsHold (s : State) : Prop :=
  s.retiming.delayTarget ≤ 300 ∧ s.retiming.delayEff ≤ 300 ∧
  s.laneA.lagTarget ≤ 300 ∧ s.laneA.lagEff ≤ 300 ∧
  s.laneB.lagTarget ≤ 300 ∧ s.laneB.lagEff ≤ 300 ∧
  s.retiming.lead ≤ 12 ∧ 25 ≤ s.retiming.horizon ∧ s.retiming.horizon ≤ 500 ∧
  s.retiming.maxLateness ≤ 65535 ∧ layoutValid s.composer.layout = true

/-- In each timebase state the moments that run in it are set and the others are not; in ABSENT no
frame has been counted and no timecode is known (R2 to R6, R156). -/
def momentsHold (tb : Timebase) : Bool :=
  match tb.state with
  | .absent => tb.e == 0 && !tb.known && tb.deadline.isNone && tb.nextPulse.isNone
  | .locked => tb.deadline.isSome && tb.nextPulse.isNone
  | .freewheel => tb.deadline.isNone && tb.nextPulse.isSome && tb.lastInternal.isSome

/-- The ticker counts from 0 to P - 1 (R15), N is below the day length (R10, R12), and the moments
agree with the timebase state. -/
abbrev TimebaseHolds (s : State) : Prop :=
  s.timebase.ticker < slewPeriod s.retiming.slewMode ∧
  s.timebase.n < dayLength (rateOf s.rate) ∧ momentsHold s.timebase = true

/-- The pass timer is at most 250, and 0 when no pass is in progress (R131). -/
abbrev FloorHolds (s : State) : Prop :=
  s.floor.timer ≤ 250 ∧ (passTarget s.floor.state = none → s.floor.timer = 0)

/-- What each buffer state says of the rest of the image buffer (R165, R170, R171). -/
def bufferHolds (b : ImageBuffer) : Bool :=
  match b.state with
  | .empty => b == ImageBuffer.clear
  | .snapshot => decide (b.readPos ≤ b.words.length) && !b.overfilled
  | .filling => b.readPos == 0 && decide (b.words.length ≤ Config.imageCapacity)

/-- In RUN the buffer is always EMPTY (R164), and its positions agree with its state (R165). -/
abbrev ServiceHolds (s : State) : Prop :=
  (s.service = .run → s.image.state = .empty) ∧ bufferHolds s.image = true

/-- No structure holds more than its capacity (R32, R57, R94, R153). -/
abbrev CapacitiesHold (s : State) : Prop :=
  s.laneA.queue.length ≤ 48 ∧ s.laneB.queue.length ≤ 48 ∧ s.schedule.length ≤ 96 ∧
  s.laneA.stack.length ≤ 8 ∧ s.laneB.stack.length ≤ 8 ∧ s.cues.length ≤ 8

/-- The composed cursor is the sum of the columns of the spans and no more than W, and each span is
at least one column wide (R79). -/
abbrev RowHolds (s : State) : Prop :=
  s.composer.cursor = (s.composer.spans.map (·.columns)).sum ∧
  s.composer.cursor ≤ s.composer.layout.width ∧
  ∀ sp ∈ s.composer.spans, 1 ≤ sp.columns

/-- A token's text: 1 to 32 characters of the accepted set or the blot for a WORD, none else
(R27, section 2.8). -/
def textHolds (t : Token) : Bool :=
  match t.kind with
  | .word => 1 ≤ t.text.length && t.text.length ≤ 32 &&
      t.text.all fun c => accepted c || c == blot
  | .speaker => t.text.isEmpty
  | .paragraph => t.text.isEmpty

/-- Every token's text is as its kind says, and each lane queue holds its own lane's tokens (R32). -/
abbrev TokensHold (s : State) : Prop :=
  (∀ t ∈ s.laneA.queue, textHolds t = true ∧ t.id.lane = .a) ∧
  (∀ t ∈ s.laneB.queue, textHolds t = true ∧ t.id.lane = .b) ∧
  ∀ t ∈ s.schedule, textHolds t = true

/-- Every group record stands for at least one cell of the cell queue, and the records together for
exactly its group cells (R76). -/
abbrev GroupsHold (s : State) : Prop :=
  (∀ g ∈ s.composer.groups, g.taken < g.composed) ∧
  (s.composer.groups.map untaken).sum = (s.composer.cells.filter isGroupCell).length ∧
  s.composer.groups.length ≤ 64

/-- The identities of the tokens that wait or are timed. -/
def tokenIdsOf (s : State) : List TokenId :=
  (s.laneA.queue ++ s.laneB.queue ++ s.schedule).map (·.id)

/-- The identities of the tokens with a group record. -/
def groupIdsOf (s : State) : List TokenId := s.composer.groups.map (·.id)

/-- The identities of the tokens with a span. -/
def spanIdsOf (s : State) : List TokenId := s.composer.spans.map (·.id)

/-- The identities that the two stacks name. -/
def entryIdsOf (s : State) : List TokenId := (s.laneA.stack ++ s.laneB.stack).map (·.id)

/-- No identity is borne by two tokens, named by two group records or two spans, or named by two
stack entries, and each stack names its own lane's tokens (R30, R79, R94). -/
abbrev IdentitiesHold (s : State) : Prop :=
  (tokenIdsOf s ++ groupIdsOf s).Nodup ∧ (tokenIdsOf s ++ spanIdsOf s).Nodup ∧
  (entryIdsOf s).Nodup ∧
  (∀ en ∈ s.laneA.stack, en.id.lane = .a) ∧ ∀ en ∈ s.laneB.stack, en.id.lane = .b

/-- The working state of the caption pipeline is in order. -/
abbrev PipelineHolds (s : State) : Prop :=
  layoutValid s.composer.layout = true ∧ CapacitiesHold s ∧ RowHolds s ∧ TokensHold s ∧
  GroupsHold s ∧ IdentitiesHold s

end Sys2Proof.Safety
end

