-- ==== Sys2Proof/Certificates/Slice0/Obligations.lean ====
section
/-! DEFINITION. The statements for the provers. `Expect` holds what they expect of the part, written
from the spec's rules apart from the model's own operations. -/

open Sys2Proof Sys2Proof.Machine Sys2Proof.Safety

namespace Sys2Proof.Expect

/-! ### Words the statements use -/

/-- `n` more, up to 65535 (R150). -/
def upBy (n : Nat) (w : Word) : Word := BitVec.ofNat 16 (min (w.toNat + n) 65535)

/-- One more, up to 65535 (R150). -/
def up (w : Word) : Word := upBy 1 w

/-- One more if the condition holds. -/
def upIf (b : Bool) (w : Word) : Word := if b then up w else w

/-- What the end of a directive's handling does: its outcome is counted, a refusal raises bit 0 and
BAD_IMAGE bit 6 as well, and the last-outcome record is overwritten (R148, R149, R181). -/
def answered (code : BitVec 5) (tag : Byte) (r : Result) (s : State) : State :=
  { s with
    counters :=
      if r = .done then s.counters
      else if r = .clamped then { s.counters with clamped := up s.counters.clamped }
      else { s.counters with refused := up s.counters.refused }
    attention :=
      if r = .done ∨ r = .clamped then s.attention
      else if r = .badImage then s.attention ||| 0x41
      else s.attention ||| 0x01
    lastOutcome := { tag := tag, code := code, result := r, stamp := s.timebase.e } }

/-- A value above the top of its range is replaced by it, with outcome CLAMPED. -/
def clampedTo (top : Nat) (v : Word) : Result := if v.toNat ≤ top then .done else .clamped

/-- The lane that a lane parameter of 0 or 1 names. -/
def laneNamed (n : Nat) : Lane := if n = 0 then .a else .b

/-- Stack entries of lane `x` whose token is one of these take the tag that `f` gives. -/
def retagged (x : Lane) (ids : List TokenId) (f : Tag → Tag) (st : List StackEntry) :
    List StackEntry :=
  st.map fun en => if en.id ∈ ids ∧ en.id.lane = x then { en with tag := f en.tag } else en

/-- A discarded token's tag (R98). -/
def dropTag (t : Tag) : Tag := if t = .waiting ∨ t = .pending then .dropped else t

/-- An admitted token's tag (R98). -/
def admitTag (t : Tag) : Tag := if t = .waiting then .pending else t

/-- A closed token's tag (R101). -/
def closeTag (t : Tag) : Tag := if t = .composed ∨ t = .sending ∨ t = .shown then .closed else t

/-- The tag of a token whose group a CLEAR removed (R102). -/
def removeTag (anyTaken : Bool) (t : Tag) : Tag :=
  if anyTaken then (if t = .sending then .closed else t)
  else if t = .composed ∨ t = .closed then .dropped else t

/-! ### Time -/

/-- This command makes exactly one frame event at this state: an FP edge in ABSENT, one before the
deadline in LOCKED, one beyond the absorb window and before the next pulse in FREEWHEEL; the deadline
in LOCKED; the next pulse in FREEWHEEL. -/
def opensOneFrame (c : Instr) (s : State) : Prop :=
  s.resetLow = false ∧
  match c with
  | .fpEdge elapsed _ =>
    s.timebase.state = .absent ∨
    (s.timebase.state = .locked ∧
      ∃ d, s.timebase.deadline = some d ∧ s.timebase.now + elapsed ≤ d) ∨
    (s.timebase.state = .freewheel ∧
      ∃ m p, s.timebase.lastInternal = some m ∧ s.timebase.nextPulse = some p ∧
        m + absorbWindow (rateOf s.rate) ≤ s.timebase.now + elapsed ∧
        s.timebase.now + elapsed ≤ p)
  | .freewheelDeadline _ => s.timebase.state = .locked ∧ s.timebase.deadline.isSome = true
  | .nextPulse _ => s.timebase.state = .freewheel ∧ s.timebase.nextPulse.isSome = true
  | _ => False

/-- This command is an FP edge, the deadline or the next pulse. -/
def ofReference (c : Instr) : Bool :=
  match c with
  | .fpEdge _ _ => true
  | .freewheelDeadline _ => true
  | .nextPulse _ => true
  | _ => false

/-- This command is the release of RESET. -/
def isRelease (c : Instr) : Bool :=
  match c with
  | .resetRelease _ _ => true
  | _ => false

/-- This command is an access to the memory port, or moves RESET. -/
def isAccessOrReset (c : Instr) : Bool :=
  match c with
  | .resetAssert => true
  | .resetRelease _ _ => true
  | .ringWrite _ _ => true
  | .passedWrite _ _ _ => true
  | .take _ _ => true
  | .reread _ _ => true
  | .attentionSummaryRead _ => true
  | .latchedLowRead _ _ => true
  | .contextPortRead _ => true
  | .restorePortWrite _ _ => true
  | _ => false

/-- The class, N, known flag and epoch of the frame that a frame event opens (R11 to R13). -/
def timecode (rate : Rate) (tb : Timebase) : TimecodeClass × Nat × Bool × Byte :=
  let next := (tb.n + 1) % dayLength rate
  let held := if tb.known then next else tb.n
  match tb.pendingWord with
  | none => (.missing, held, tb.known, tb.epoch)
  | some w =>
    if validLabel rate (labelOfWord w) = false then (.invalid, held, tb.known, tb.epoch)
    else
      let new := frameNumber rate (labelOfWord w)
      if tb.known = true ∧ new = next then (.nextFrame, new, true, tb.epoch)
      else if tb.known = true ∧ new = tb.n then (.repeatFrame, tb.n, true, tb.epoch)
      else (.jump, new, true, tb.epoch + 1)

/-- One frame toward a target (R44). -/
def toward (target eff : Nat) : Nat :=
  if eff < target then eff + 1 else if eff > target then eff - 1 else eff

/-- A parser after the stall check of a frame event whose new E is `e` (R23). -/
def afterStall (e : Frame) (p : Parser) : Parser :=
  match p.staging with
  | none => p
  | some st => if e = st.startFrame + 2 then { p with staging := none } else p

/-- A parser stalls at a frame event whose new E is `e` (R23). -/
def stalls (e : Frame) (p : Parser) : Bool :=
  match p.staging with
  | none => false
  | some st => decide (e = st.startFrame + 2)

/-- The three rings. -/
def rings : List Ring := [.lane .a, .lane .b, .directive]

/-- A cue fires at a frame whose timecode state is `tb` (R157). -/
def fires (tb : Timebase) (c : Cue) : Bool :=
  decide (tb.known = true ∧ c.epoch = tb.epoch ∧ c.target = tb.n)

/-- A JUMP frame retires a cue (R159). -/
def outlived (tb : Timebase) (c : Cue) : Bool := decide (tb.cls = .jump ∧ c.epoch ≠ tb.epoch)

/-- The service state, the image buffer and D_target after the action of a cue that fires: HOLD holds,
RESUME in HELD resumes and empties the buffer unless it is FILLING, DELAY sets D_target (R38, R157,
R163, R164). -/
def acted (v : Service × ImageBuffer × Nat) (q : Cue) : Service × ImageBuffer × Nat :=
  match q.action with
  | .hold => (.held, v.2)
  | .resume =>
    if v.1 = .held ∧ v.2.1.state ≠ .filling
    then (.run, { state := .empty, words := [], readPos := 0, overfilled := false }, v.2.2) else v
  | .clear => v
  | .handoff _ _ => v
  | .delay d => (v.1, v.2.1, min d.toNat 300)

/-- A HANDOFF cue. -/
def isHandoff (q : Cue) : Bool :=
  match q.action with
  | .handoff _ _ => true
  | _ => false

/-- A DELAY cue whose value is above the top of its range. -/
def overTop (q : Cue) : Bool :=
  match q.action with
  | .delay d => decide (300 < d.toNat)
  | _ => false

/-- This frame command asks that no cue fires before the other reactions (R158, log 3). -/
def firesLast (c : Instr) : Prop :=
  let last (o : FrameOrder) : Prop := o.cuesFirst = 0 ∧ o.cuesSecond = 0 ∧ o.cuesThird = 0
  match c with
  | .fpEdge _ o => last o
  | .freewheelDeadline o => last o
  | .nextPulse o => last o
  | _ => False

/-- `t` is what `n` CUE_FIREs, one after another, make of `s`. -/
def firings (n : Nat) (s t : State) : Prop :=
  match n with
  | 0 => t = s
  | m + 1 => ∃ u, exec .cueFire s = .next u ∧ firings m u t

/-! ### The span -/

/-- The word address of a span offset (R177). -/
def spanWord (off : Nat) (s : State) : BitVec 20 := BitVec.ofNat 20 (s.span.toNat * 32768 + off)

/-- The span offset at which a ring begins (section 2.1). -/
def ringBase (r : Ring) : Nat :=
  match r with
  | .lane .a => 0
  | .lane .b => 0x1000
  | .directive => 0x2000

/-- The words of a ring (section 2.1). -/
def ringWords (r : Ring) : Nat :=
  match r with
  | .lane _ => 4096
  | .directive => 1024

/-- The ring offset after this one. -/
def after (r : Ring) (off : Nat) : Nat := if off + 1 = ringWords r then 0 else off + 1

/-- The part after a write has been passed to the SRAM (R179). -/
def written (ma : BitVec 20) (w : Word) (s : State) : State :=
  { s with sram := Memory.write s.sram ma.toNat w, busOut := .passedWrite }

/-- The part after a read has been passed to the SRAM (R179). -/
def fetched (ma : BitVec 20) (s : State) : State :=
  { s with busOut := .passedRead (Memory.read s.sram ma.toNat) }

/-- The words that follow a header (R20, R183). -/
def wordsToCome (r : Ring) (h : Word) : Nat :=
  match r with
  | .lane _ => if h.toNat / 4096 = 1 then (h.toNat % 64 + 1) / 2 else 0
  | .directive => h.toNat / 256 % 8

/-- The command that a complete record is, by the fields of its header (R24, R183). -/
def recordCommand (r : Ring) (h : Word) (body : List Word) : Instr :=
  match r with
  | .lane x =>
    let sentEnd := h.toNat / 2048 % 2 = 1
    let attach := h.toNat / 1024 % 2 = 1
    let length := BitVec.ofNat 6 (h.toNat % 64)
    match h.toNat / 4096 with
    | 1 => .wordRecord x (decide sentEnd) (decide attach) length body
    | 2 => .speakerRecord x (decide sentEnd) (decide attach)
    | 3 => .breakRecord x (decide sentEnd) (decide attach)
    | 4 => .correct x length
    | kind => .unknownKind x (BitVec.ofNat 4 kind)
  | .directive =>
    let tag := BitVec.ofNat 8 (h.toNat % 256)
    match h.toNat / 2048 with
    | 0x01 => .delay tag body
    | 0x02 => .lag tag body
    | 0x03 => .lead tag body
    | 0x04 => .stale tag body
    | 0x05 => .slew tag body
    | 0x06 => .layout tag body
    | 0x07 => .clear tag body
    | 0x08 => .handoff tag body
    | 0x09 => .flush tag body
    | 0x0A => .hold tag body
    | 0x0B => .resume tag body
    | 0x0C => .snapshot tag body
    | 0x0D => .restoreOpen tag body
    | 0x0E => .restoreCommit tag body
    | 0x0F => .restoreAbandon tag body
    | 0x10 => .cue tag body
    | 0x11 => .uncue tag body
    | 0x12 => .zeroCounts tag body
    | 0x13 => .restart tag body
    | code => .unknownDirective (BitVec.ofNat 5 code) tag body

/-! ### Tokens -/

/-- A character of the accepted set stands as it is, any other becomes the blot (R27). -/
def shown (c : Byte) : Byte :=
  if (0x20 ≤ c.toNat ∧ c.toNat ≤ 0x7E) ∨ 0xA0 ≤ c.toNat then c else 0x7F

/-- The characters of a WORD record's first `n` places, two to a word, the first in the high byte. -/
def characters (chars : List Word) (n : Nat) : List Byte :=
  (List.range n).map fun i =>
    let w := (chars.getD (i / 2) 0).toNat
    BitVec.ofNat 8 (if i % 2 = 0 then w / 256 else w % 256)

/-- A WORD record's text: at most its first 32 characters (R27). -/
def text (length : BitVec 6) (chars : List Word) : List Byte :=
  (characters chars (min length.toNat 32)).map shown

/-- The counters after the text of a WORD record is built: truncated once if it was cut, substituted
once for each character outside the accepted set (R27). -/
def textCounters (length : BitVec 6) (chars : List Word) (k : Counters) : Counters :=
  { k with
    truncated := upIf (decide (32 < length.toNat)) k.truncated
    substituted := upBy ((characters chars (min length.toNat 32)).filter fun c =>
      !decide ((0x20 ≤ c.toNat ∧ c.toNat ≤ 0x7E) ∨ 0xA0 ≤ c.toNat)).length k.substituted }

/-- A speech count raised to a limit that it precedes (R45, R59). -/
def raised (limit : Option Frame) (speech : Frame) : Frame :=
  match limit with
  | none => speech
  | some l => if precedes speech l = true then l else speech

/-- A speech count precedes a limit. -/
def behind (limit : Option Frame) (speech : Frame) : Bool :=
  match limit with
  | none => false
  | some l => precedes speech l

/-- The unclamped stamp of a token created now in lane `x` (R45). -/
def stamp (x : Lane) (s : State) : Frame := s.timebase.e - BitVec.ofNat 32 (laneOf x s).lagEff

/-- The token that a record creates in lane `x` now (R30, R31, R45). -/
def token (x : Lane) (kind : TokenKind) (sentEnd attach : Bool) (text : List Byte) (s : State) :
    Token :=
  { id := { lane := x, serial := serialFor x s }, kind := kind, sentEnd := sentEnd,
    attach := attach, text := text, arrival := s.timebase.e,
    speech := raised (laneOf x s).speechLast (stamp x s) }

/-- The stack after the push of a new token, of which a BREAK makes none (R95, R96). -/
def pushed (t : Token) (st : List StackEntry) : List StackEntry :=
  if t.kind = .paragraph then st else ({ tag := .waiting, id := t.id } :: st).take 8

/-- The counters after the stamp of a token created now in lane `x` (R45). -/
def stampCounters (x : Lane) (s : State) (k : Counters) : Counters :=
  { k with bunched := upIf (behind (laneOf x s).speechLast (stamp x s)) k.bunched }

/-- The part after a token has joined the queue of a standby lane (R31). -/
def queued (t : Token) (s : State) : State :=
  let l := laneOf t.id.lane s
  setLane t.id.lane
    { l with queue := l.queue ++ [t], nextSerial := t.id.serial + 1, speechLast := some t.speech,
             stack := pushed t l.stack }
    { s with counters := stampCounters t.id.lane s s.counters }

/-- The part after a token of the floor lane has been created and admitted at once (R31, R59). -/
def scheduled (t : Token) (s : State) : State :=
  let l := laneOf t.id.lane s
  let speech := raised s.retiming.speechTail t.speech
  let k := stampCounters t.id.lane s s.counters
  setLane t.id.lane
    { l with nextSerial := t.id.serial + 1, speechLast := some t.speech,
             stack := retagged t.id.lane [t.id] admitTag (pushed t l.stack) }
    { s with
      counters := { k with bunched := upIf (behind s.retiming.speechTail t.speech) k.bunched }
      retiming := { s.retiming with speechTail := some speech }
      schedule := s.schedule ++ [{ t with speech := speech }] }

/-- A serial of lane `x` is held: by a token that waits or is timed, by a group record, by a span or
by an entry of the lane's stack (R30). -/
def held (x : Lane) (s : State) (n : BitVec 12) : Prop :=
  (∃ t ∈ (laneOf x s).queue, t.id = { lane := x, serial := n }) ∨
  (∃ t ∈ s.schedule, t.id = { lane := x, serial := n }) ∨
  (∃ g ∈ s.composer.groups, g.id = { lane := x, serial := n }) ∨
  (∃ sp ∈ s.composer.spans, sp.id = { lane := x, serial := n }) ∨
  ∃ en ∈ (laneOf x s).stack, en.id = { lane := x, serial := n }

/-! ### Cells and blocks -/

/-- The word of a cell (R184). -/
def cellNumber (c : Cell) : Nat :=
  match c with
  | .char code => 0x1000 + code.toNat
  | .marker => 0x2000
  | .roll => 0x3000
  | .erase k => 0x4000 + k
  | .blank => 0x5000
  | .placeRow base depth => 0x6000 + 16 * base + depth
  | .placeCol left width => 0x7000 + 64 * left + width

/-- The header of the block that the part offers now (R119, R184). -/
def blockHeader (s : State) : Word :=
  BitVec.ofNat 16 (4096 * s.emission.blockSeq.toNat + 512 * min 6 s.composer.cells.length +
    (if s.service = .held then 256 else 0) + (if s.timebase.state = .freewheel then 128 else 0) +
    (if s.emission.carry then 64 else 0) + s.timebase.e.toNat % 64)

/-- Block word `i`, from 1 to 6: a cell from the front of the queue, or NULL (R118). -/
def blockCell (i : Nat) (s : State) : Word :=
  match s.composer.cells[i - 1]? with
  | none => 0
  | some c => BitVec.ofNat 16 (cellNumber c)

/-- The eight words of the block that the part offers now: the last makes their sum 0 (R118, R119). -/
def block (s : State) : List Word :=
  let ws := [blockHeader s, blockCell 1 s, blockCell 2 s, blockCell 3 s, blockCell 4 s,
    blockCell 5 s, blockCell 6 s]
  ws ++ [BitVec.ofNat 16 (65536 - (ws.map (·.toNat)).sum % 65536)]

/-- The group cells that a release of `t` composes on a row with this cursor and width, and whether
a ROLL goes ahead of them (R80, R82, R84, R85). -/
def composition (t : Token) (cursor width : Nat) : Bool × List Cell :=
  match t.kind with
  | .word =>
    let text := t.text.take width
    let sp := if 0 < cursor ∧ t.attach = false then 1 else 0
    if width < cursor + sp + text.length then (true, text.map Cell.char)
    else (false, List.replicate sp (Cell.char 0x20) ++ text.map Cell.char)
  | .speaker => (decide (0 < cursor), [.marker])
  | .paragraph => (decide (0 < cursor), [])

/-- The columns of group cells: 1 for a character and 2 for a MARKER (R74). -/
def columns (cs : List Cell) : Nat := (cs.map fun c => if c = .marker then 2 else 1).sum

/-- A pass completes from lane `x`: its queue is discarded, the other lane's queue is trimmed against
S_tail, and the floor changes (R138, R139). -/
def passed (x : Lane) (s : State) : State :=
  let y := otherLane x
  let lost := (laneOf x s).queue ++
    (laneOf y s).queue.filter fun t => match s.retiming.speechTail with
      | none => false
      | some tail => !isAfter t.speech tail
  let kept := (laneOf y s).queue.filter fun t => match s.retiming.speechTail with
    | none => true
    | some tail => isAfter t.speech tail
  let ids := lost.map (·.id)
  let lx := laneOf x s
  let ly := laneOf y s
  setLane x { lx with queue := [], stack := retagged x ids dropTag lx.stack }
    (setLane y { ly with queue := kept, stack := retagged y ids dropTag ly.stack }
      { s with counters := { s.counters with trimmed := upBy lost.length s.counters.trimmed }
               floor := { state := floorOf y, timer := 0 } })

/-- The pass from lane `x` completes, with the admission run that follows (R138). -/
def handedOver (x : Lane) (s : State) : State := admissionRun (passed x s)

/-- A frame event's step of the pass timer: a pass in progress loses one frame of its wait, and
completes when none is left (R136, R138). -/
def timed (s : State) : State :=
  if passTarget s.floor.state = none then s
  else if s.floor.timer ≤ 1 then handedOver (floorLane s.floor.state) s
  else { s with floor := { s.floor with timer := s.floor.timer - 1 } }

/-- This frame command asks that the pass timer follows the release pass (R141, log 3). -/
def releasesFirst (c : Instr) : Bool :=
  match c with
  | .fpEdge _ o => o.timer = .afterRelease
  | .freewheelDeadline o => o.timer = .afterRelease
  | .nextPulse o => o.timer = .afterRelease
  | _ => false

/-- The release pass of this frame command before or after another step, as the command asks. -/
def releasedAround (c : Instr) (f : State → State) (s : State) : State :=
  if releasesFirst c then f (releasePass s) else releasePass (f s)

/-- What a release pass of a frame event works on: the new E, and the D_eff the event brings
(R61). -/
def atEvent (delayEff : Nat) (s : State) : State :=
  { s with
    timebase := { s.timebase with e := s.timebase.e + 1 }
    retiming := { s.retiming with delayEff := delayEff } }

/-- A lane is flushed, before the admission run that follows (R143). -/
def flushed (x : Lane) (s : State) : State :=
  let mine := s.schedule.filter fun t => t.id.lane = x
  let ids := (laneOf x s).queue.map (·.id) ++ mine.map (·.id)
  let y := otherLane x
  let lx := laneOf x s
  let ly := laneOf y s
  setLane x { lx with queue := [], speechLast := none,
                      stack := retagged x ids dropTag lx.stack }
    (setLane y { ly with stack := retagged y ids dropTag ly.stack }
      { s with schedule := s.schedule.filter fun t => t.id.lane ≠ x })

/-- The row is closed: its spans' tokens are CLOSED, the span list is empty and the cursor 0 (R79,
R101). -/
def closed (s : State) : State :=
  let ids := s.composer.spans.map (·.id)
  { s with
    laneA := { s.laneA with stack := retagged .a ids closeTag s.laneA.stack }
    laneB := { s.laneB with stack := retagged .b ids closeTag s.laneB.stack }
    composer := { s.composer with spans := [], cursor := 0 } }

/-- A stack entry's tag after a CLEAR: its group's removal, then the closing of its span (R88, R101,
R102). -/
def clearedEntry (s : State) (en : StackEntry) : StackEntry :=
  let removed :=
    match s.composer.groups.find? fun g => g.id = en.id with
    | none => en.tag
    | some g => removeTag (decide (0 < g.taken)) en.tag
  { en with tag := if en.id ∈ s.composer.spans.map (·.id) then closeTag removed else removed }

/-- A correction stack after a CLEAR. -/
def clearedStack (x : Lane) (s : State) (st : List StackEntry) : List StackEntry :=
  st.map fun en => if en.id.lane = x then clearedEntry s en else en

/-- What a WORD, SPEAKER or BREAK record that is not empty makes: its lane, its token's kind, flags
and text, and the counters once the text is built (R27). -/
def makes (c : Instr) (s : State) :
    Option (Lane × TokenKind × Bool × Bool × List Byte × Counters) :=
  match c with
  | .wordRecord x sentEnd attach length chars =>
    if length = 0 then none
    else some (x, .word, sentEnd, attach, text length chars, textCounters length chars s.counters)
  | .speakerRecord x sentEnd attach => some (x, .speaker, sentEnd, attach, [], s.counters)
  | .breakRecord x sentEnd attach => some (x, .paragraph, sentEnd, attach, [], s.counters)
  | _ => none

/-- Entries of either stack whose token is one of these take the tag that `f` gives (R97). -/
def noticed (ids : List TokenId) (f : Tag → Tag) (s : State) : State :=
  { s with laneA := { s.laneA with stack := retagged .a ids f s.laneA.stack }
           laneB := { s.laneB with stack := retagged .b ids f s.laneB.stack } }

/-- The head of a lane queue has been admitted, with `rest` behind it (R59, steps 1 to 5). -/
def admitted (t : Token) (rest : List Token) (s : State) : State :=
  let l := laneOf t.id.lane s
  let speech := raised s.retiming.speechTail t.speech
  setLane t.id.lane
    { l with queue := rest, stack := retagged t.id.lane [t.id] admitTag l.stack }
    { s with
      counters := { s.counters with
        bunched := upIf (behind s.retiming.speechTail t.speech) s.counters.bunched }
      retiming := { s.retiming with speechTail := some speech }
      schedule := s.schedule ++ [{ t with speech := speech }] }

/-- The due of S and E_a with the D_eff and lead in force (R48). -/
def dueAt (r : Retiming) (speech arrival : Frame) : Frame :=
  let due := speech + BitVec.ofNat 32 r.delayEff + BitVec.ofNat 32 r.lead
  if 1 ≤ (arrival + 1 - due).toNat ∧ (arrival + 1 - due).toNat < 2147483648
  then arrival + 1 else due

/-- The due frame of a token (R48). -/
def dueOf (t : Token) (s : State) : Frame := dueAt s.retiming t.speech t.arrival

/-- The send span of a token (R49). -/
def spanOf (t : Token) : Nat :=
  match t.kind with
  | .word => (t.text.length + 1 + 5) / 6
  | .speaker => 1
  | .paragraph => 1

/-- The part after a stale head has been discarded (R62). -/
def discarded (t : Token) (rest : List Token) (s : State) : State :=
  noticed [t.id] dropTag { s with
    schedule := rest, counters := { s.counters with stale := up s.counters.stale } }

/-- The part after the head has been composed and released (R63, R81 to R85, R99). -/
def released (t : Token) (rest : List Token) (s : State) : State :=
  let (roll, cs) := composition t s.composer.cursor s.composer.layout.width
  let cut := t.kind = .word ∧ s.composer.layout.width < t.text.length
  let u := if roll then closed s else s
  let start := u.composer.cursor
  noticed [t.id] (fun tag => if tag = .pending then (if cs = [] then .dropped else .composed) else tag)
    { u with
      schedule := rest
      counters := { s.counters with truncated := upIf (decide cut) s.counters.truncated }
      emission := { s.emission with
        heldCurrent := s.emission.heldCurrent || roll || !cs.isEmpty }
      composer :=
        { layout := s.composer.layout
          cells := s.composer.cells ++ (if roll then [.roll] else []) ++ cs
          groups := s.composer.groups ++
            (if cs = [] then [] else [{ id := t.id, counts := some (t.speech, t.arrival),
                                        composed := cs.length, taken := 0, columnsTaken := 0 }])
          cursor := start + columns cs
          spans := u.composer.spans ++
            (if cs = [] then [] else [{ id := t.id, start := start, columns := columns cs }]) } }

/-- The part after the lateness of a group with these counts has been measured (R52). -/
def measured (counts : Option (Frame × Frame)) (s : State) : State :=
  match counts with
  | none => s
  | some (speech, arrival) =>
    let late := (s.timebase.e - dueAt s.retiming speech arrival).toInt
    { s with
      counters := { s.counters with lateTokens := upIf (decide (0 < late)) s.counters.lateTokens }
      retiming := { s.retiming with
        maxLateness := max s.retiming.maxLateness (min late.toNat 65535) } }

/-! ### The report window -/

/-- The high half of a two-word value. -/
def halves (f : Frame) : Word := BitVec.ofNat 16 (f.toNat / 65536)

/-- The S of the schedule head, 0 when there is none (R71). -/
def headS (s : State) : Frame :=
  match s.schedule with
  | [] => 0
  | t :: _ => t.speech

/-- The due of the schedule head, 0 when there is none (R71). -/
def headD (s : State) : Frame :=
  match s.schedule with
  | [] => 0
  | t :: _ => dueOf t s

/-- The high word of a pair of the schedule head: its latch, and 0 while the schedule is empty (R71,
R182, log 25). -/
def highRead (latch : Word) (s : State) : Nat := if s.schedule = [] then 0 else latch.toNat

/-- Report word 1: the four states (section 11.5). -/
def states (s : State) : Nat :=
  (match s.timebase.state with | .absent => 0 | .locked => 1 | .freewheel => 2) +
  (match s.service with | .run => 0 | .held => 0x10) +
  (match s.floor.state with
    | .floorA => 0 | .floorB => 0x100 | .passingAB => 0x200 | .passingBA => 0x300) +
  (match s.image.state with | .empty => 0 | .snapshot => 0x1000 | .filling => 0x2000)

/-- The number of a timecode class. -/
def classNumber (c : TimecodeClass) : Nat :=
  match c with
  | .nextFrame => 0
  | .repeatFrame => 1
  | .jump => 2
  | .invalid => 3
  | .missing => 4

/-- The number of an outcome. -/
def outcomeNumber (r : Result) : Nat :=
  match r with
  | .done => 0
  | .clamped => 1
  | .unknown => 2
  | .malformed => 3
  | .range => 4
  | .state => 5
  | .full => 6
  | .past => 7
  | .noTimecode => 8
  | .busy => 9
  | .same => 10
  | .badImage => 11

/-- The label the report shows: that of N, 00:00:00:00 while the timecode is not known (R17). -/
def label (s : State) : Label :=
  if s.timebase.known then labelOf (rateOf s.rate) s.timebase.n else ⟨0, 0, 0, 0⟩

/-- The words of the report window from word 0 on; words 59 to 63 read 0 (section 11.5). -/
def report (s : State) : List Nat :=
  let l := label s
  let c := s.counters
  [s.attention.toNat, states s, s.timebase.e.toNat % 65536, s.latches.e.toNat,
   256 * l.h + l.m, 256 * l.s + l.f, 256 * s.timebase.epoch.toNat + classNumber s.timebase.cls,
   s.retiming.delayTarget, s.retiming.delayEff, s.laneA.lagTarget, s.laneA.lagEff,
   s.laneB.lagTarget, s.laneB.lagEff, s.retiming.lead, s.retiming.horizon,
   (match s.retiming.slewMode with | .normal => 0 | .brisk => 1),
   4096 * (s.composer.layout.base % 16) + 256 * (s.composer.layout.depth % 16) +
     s.composer.layout.left % 256, s.composer.layout.width,
   256 * s.laneA.queue.length + s.laneB.queue.length, s.schedule.length, s.composer.cells.length,
   256 * s.laneA.stack.length + s.laneB.stack.length, s.cues.length,
   (headS s).toNat % 65536, highRead s.latches.headSpeech s,
   (headD s).toNat % 65536, highRead s.latches.headDue s, s.composer.cursor,
   256 * outcomeNumber s.lastOutcome.result + s.lastOutcome.tag.toNat, s.lastOutcome.code.toNat,
   s.lastOutcome.stamp.toNat % 65536, s.lastOutcome.stamp.toNat / 65536, s.retiming.maxLateness,
   c.discontinuities.toNat, c.stalled.toNat, c.unknownKind.toNat, c.empty.toNat,
   c.substituted.toNat, c.truncated.toNat, c.bunched.toNat, c.laneOverrun.toNat,
   c.standbyShed.toNat, c.trimmed.toNat, c.stale.toNat, c.lateTokens.toNat,
   c.lateCorrections.toNat, c.underflows.toNat, c.missedFrames.toNat, c.rereads.toNat,
   c.freewheelEntries.toNat, c.timecodeInvalid.toNat, c.timecodeMissing.toNat,
   c.timecodeJump.toNat, c.refused.toNat, c.clamped.toNat, c.cuesFired.toNat, c.cuesStale.toNat,
   c.cueActionsRefused.toNat, c.droppedDuringRestore.toNat]

/-! ### Directives -/

/-- The code, tag and number of parameter words of a directive record whose code names a directive. -/
def shape (c : Instr) : Option (BitVec 5 × Byte × Nat) :=
  match c with
  | .delay tag ps => some (0x01, tag, ps.length)
  | .lag tag ps => some (0x02, tag, ps.length)
  | .lead tag ps => some (0x03, tag, ps.length)
  | .stale tag ps => some (0x04, tag, ps.length)
  | .slew tag ps => some (0x05, tag, ps.length)
  | .layout tag ps => some (0x06, tag, ps.length)
  | .clear tag ps => some (0x07, tag, ps.length)
  | .handoff tag ps => some (0x08, tag, ps.length)
  | .flush tag ps => some (0x09, tag, ps.length)
  | .hold tag ps => some (0x0A, tag, ps.length)
  | .resume tag ps => some (0x0B, tag, ps.length)
  | .snapshot tag ps => some (0x0C, tag, ps.length)
  | .restoreOpen tag ps => some (0x0D, tag, ps.length)
  | .restoreCommit tag ps => some (0x0E, tag, ps.length)
  | .restoreAbandon tag ps => some (0x0F, tag, ps.length)
  | .cue tag ps => some (0x10, tag, ps.length)
  | .uncue tag ps => some (0x11, tag, ps.length)
  | .zeroCounts tag ps => some (0x12, tag, ps.length)
  | .restart tag ps => some (0x13, tag, ps.length)
  | _ => none

/-- The parameter counts that the catalogue gives a directive code (section 9.3). -/
def countsTaken (code : BitVec 5) : List Nat :=
  match code.toNat with
  | 0x01 => [1]
  | 0x02 => [2]
  | 0x03 => [1]
  | 0x04 => [1]
  | 0x05 => [1]
  | 0x06 => [4]
  | 0x08 => [2]
  | 0x09 => [1]
  | 0x10 => [5, 6, 7]
  | 0x11 => [1]
  | _ => [0]

/-- Whether four values form a valid layout (R73). -/
def validLayout (base depth left width : Nat) : Bool :=
  decide (1 ≤ base ∧ base ≤ 15 ∧ 2 ≤ depth ∧ depth ≤ 4 ∧ left ≤ 26 ∧ 16 ≤ width ∧ width ≤ 40 ∧
    1 ≤ (base : Int) - depth + 1 ∧ left + width ≤ 42)

/-- The action that a CUE's action value and argument words name, for a value up to 4 (R154). -/
def actionNamed (value : Nat) (args : List Word) : CueAction :=
  match value with
  | 0 => .hold
  | 1 => .resume
  | 2 => .clear
  | 3 => .handoff (args.getD 0 0) (args.getD 1 0)
  | _ => .delay (args.getD 0 0)

/-- How many argument words an action value takes (R154). -/
def argumentsTaken (value : Nat) : Nat :=
  match value with
  | 3 => 2
  | 4 => 1
  | _ => 0

/-! ### Images -/

/-- How many words the tokens of a list take in an image (R168). -/
def tokenWordsTaken (ts : List Token) : Nat := (ts.map fun t => 6 + (t.text.length + 1) / 2).sum

/-- The two numbers of an E value, low first. -/
def frameNumbers (f : Frame) : List Nat := [f.toNat % 65536, f.toNat / 65536]

/-- The two numbers of an S_last or S_tail, 0 when it is unset (R167). -/
def optionNumbers (f : Option Frame) : List Nat :=
  match f with
  | none => [0, 0]
  | some v => frameNumbers v

/-- The settings words of an image, 8 to 23 (R167, R186); a value wider than its bits is cut to
them, which no value of `SettingsHold` is. -/
def settings (s : State) : List Nat :=
  [s.retiming.delayTarget, s.retiming.delayEff, s.laneA.lagTarget, s.laneA.lagEff,
   s.laneB.lagTarget, s.laneB.lagEff,
   (match s.retiming.slewMode with | .normal => 0 | .brisk => 0x2000) +
     512 * (s.retiming.lead % 16) + s.retiming.horizon % 512,
   4096 * (s.composer.layout.base % 16) + 256 * (s.composer.layout.depth % 16) +
     s.composer.layout.left % 256,
   256 * (s.composer.layout.width % 256) +
     (match s.floor.state with
      | .floorA => 0 | .floorB => 0x10 | .passingAB => 0x20 | .passingBA => 0x30) +
     4 * s.retiming.speechTail.isSome.toNat + 2 * s.laneB.speechLast.isSome.toNat +
     s.laneA.speechLast.isSome.toNat,
   s.floor.timer] ++ optionNumbers s.laneA.speechLast ++ optionNumbers s.laneB.speechLast ++
  optionNumbers s.retiming.speechTail

/-- The identity word of a token: lane in bit 12, serial below it (R186). -/
def identityNumber (id : TokenId) : Nat :=
  (match id.lane with | .a => 0 | .b => 4096) + id.serial.toNat

/-- The text of a token record, two characters to a word, the first in the high byte; a last odd one
has a low byte of 0 (R168). -/
def textNumbers (text : List Byte) : List Nat :=
  (List.range ((text.length + 1) / 2)).map fun i =>
    256 * (text.getD (2 * i) 0).toNat + (text.getD (2 * i + 1) 0).toNat

/-- A token record: kind, flags and length; lane and serial; S; E_a; the text (R168, R186). -/
def tokenNumbers (t : Token) : List Nat :=
  [4096 * (match t.kind with | .word => 1 | .speaker => 2 | .paragraph => 3) +
     2048 * t.sentEnd.toNat + 1024 * t.attach.toNat + t.text.length % 64,
   identityNumber t.id] ++ frameNumbers t.speech ++ frameNumbers t.arrival ++ textNumbers t.text

/-- The two words of a group record: lane and serial; cells composed and cells taken (R169). -/
def groupNumbers (g : GroupRecord) : List Nat := [identityNumber g.id, 256 * g.composed + g.taken]

/-- The two words of a span: lane and serial; columns (R169). -/
def spanNumbers (sp : Span) : List Nat := [identityNumber sp.id, sp.columns]

/-- The number of a stack tag (R186). -/
def tagNumber (t : Tag) : Nat :=
  match t with
  | .waiting => 0
  | .pending => 1
  | .composed => 2
  | .sending => 3
  | .shown => 4
  | .closed => 5
  | .dropped => 6

/-- The word of a stack entry: tag, lane and serial (R169, R186). -/
def entryNumber (en : StackEntry) : Nat := 8192 * tagNumber en.tag + identityNumber en.id

/-- The presence word of the stacks: places 1 to the depth of lane A in the low byte, of lane B in the
high byte (R169, R186). -/
def presenceNumber (s : State) : Nat :=
  256 * (2 ^ s.laneB.stack.length - 1) + (2 ^ s.laneA.stack.length - 1)

/-- The five words of a cue: tag; target; action, with a HANDOFF's lane, one above 255 as 255; and
argument (R169, R186). -/
def cueNumbers (q : Cue) : List Nat :=
  [q.tag.toNat, q.target % 65536, q.target / 65536] ++
  match q.action with
  | .hold => [0, 0]
  | .resume => [1, 0]
  | .clear => [2, 0]
  | .handoff lane wait => [256 * min lane.toNat 255 + 3, wait.toNat]
  | .delay d => [4, d.toNat]

/-- The sections of an image behind its header: settings, token records, cells, group table, cursor,
spans, stacks from place 1 upward, cues (R167 to R169). -/
def sections (s : State) : List Nat :=
  settings s ++ (s.laneA.queue ++ s.laneB.queue ++ s.schedule).flatMap tokenNumbers ++
  s.composer.cells.map cellNumber ++ s.composer.groups.flatMap groupNumbers ++
  [s.composer.cursor] ++ s.composer.spans.flatMap spanNumbers ++
  [presenceNumber s] ++ s.laneA.stack.reverse.map entryNumber ++
  s.laneB.stack.reverse.map entryNumber ++ s.cues.flatMap cueNumbers

/-- An image without its check word: format word, total length, E, the section counts, the sections
(R167, R186). -/
def uncheckedImage (s : State) : List Nat :=
  [0x4A31, 8 + (sections s).length + 1] ++ frameNumbers s.timebase.e ++
  [256 * s.laneA.queue.length + s.laneB.queue.length,
   256 * s.schedule.length + s.composer.cells.length,
   256 * s.composer.groups.length + s.composer.spans.length, 256 * s.cues.length] ++ sections s

/-- The image of the working state: the check word makes its sum 0 modulo 65536 (R166 to R169). -/
def image (s : State) : List Word :=
  (uncheckedImage s ++ [65536 - (uncheckedImage s).sum % 65536]).map (BitVec.ofNat 16)

/-- A cell with every field in its range (R184). -/
def cellInRange (c : Cell) : Prop :=
  match c with
  | .char code => shown code = code
  | .marker => True
  | .roll => True
  | .erase k => 1 ≤ k ∧ k ≤ 40
  | .blank => True
  | .placeRow base depth => 1 ≤ base ∧ base ≤ 15 ∧ 2 ≤ depth ∧ depth ≤ 4
  | .placeCol left width => left ≤ 26 ∧ 16 ≤ width ∧ width ≤ 40

/-- The tag that fits where an entry's token stands (R114). -/
def fittingTag (s : State) (en : StackEntry) : Tag :=
  if en.id ∈ (s.laneA.queue ++ s.laneB.queue).map (·.id) then .waiting
  else if en.id ∈ s.schedule.map (·.id) then .pending
  else if en.id ∈ s.composer.spans.map (·.id) then
    match s.composer.groups.find? fun g => g.id = en.id with
    | none => .shown
    | some g => if g.taken = 0 then .composed else .sending
  else if en.id ∈ s.composer.groups.map (·.id) then .closed
  else if en.tag = .closed then .closed else .dropped

/-- The untaken cells of the groups stand in the queue in their order, each group's run unbroken and
every other cell outside the runs (R76). -/
def runsStand (gs : List GroupRecord) (cs : List Cell) : Prop :=
  match gs with
  | [] => ∀ c ∈ cs, isGroupCell c = false
  | g :: rest => ∃ front own back, cs = front ++ own ++ back ∧
      (∀ c ∈ front, isGroupCell c = false) ∧ own.length = g.composed - g.taken ∧
      (∀ c ∈ own, isGroupCell c = true) ∧ (Cell.marker ∈ own → g.composed = 1) ∧
      runsStand rest back

/-- The last span's cells stand at the tail of the queue, or the queue holds fewer than 40 cells, all
ERASE (R78, R107, R173). -/
def tailStands (c : Composer) : Prop :=
  ∀ left sp, c.spans = left ++ [sp] →
    (sp.id ∈ c.groups.map (·.id) →
      (∃ ahead g, c.groups = ahead ++ [g] ∧ g.id = sp.id) ∧
      ∃ front last, c.cells = front ++ [last] ∧ isGroupCell last = true) ∧
    (sp.id ∉ c.groups.map (·.id) →
      c.cells.length < 40 ∧ ∀ x ∈ c.cells, ∃ k, x = .erase k)

/-- What a snapshot's image must find in order, besides the invariants, to pass the checks of R173 and
load unchanged: capacities, cells in range and in their runs, stack tags that fit where their tokens
stand, the schedule in speech order up to S_tail, and start columns as the spans lie. -/
def inOrder (s : State) : Prop :=
  s.composer.cells.length ≤ 64 ∧ (∀ c ∈ s.composer.cells, cellInRange c) ∧
  (∀ g ∈ s.composer.groups, g.composed ≤ 33) ∧ runsStand s.composer.groups s.composer.cells ∧
  tailStands s.composer ∧
  (∀ en ∈ s.laneA.stack ++ s.laneB.stack, en.tag = fittingTag s en) ∧
  (∀ front t u back, s.schedule = front ++ t :: u :: back → precedes u.speech t.speech = false) ∧
  (∀ front t, s.schedule = front ++ [t] →
    ∃ tail, s.retiming.speechTail = some tail ∧ precedes tail t.speech = false) ∧
  (∀ left sp right, s.composer.spans = left ++ sp :: right →
    sp.start = (left.map (·.columns)).sum) ∧
  ∀ q ∈ s.cues, q.target < 4294967296

/-- A token with its S and E_a moved by a shift (R174). -/
def moved (shift : Frame) (t : Token) : Token :=
  { t with speech := t.speech + shift, arrival := t.arrival + shift }

/-- A lane as a restore commit loads it: its parser stays, its serials start from 0 (R19, R30). -/
def loadedLane (shift : Frame) (image now : LaneState) : LaneState :=
  { image with
    parser := now.parser, nextSerial := 0, queue := image.queue.map (moved shift),
    speechLast := image.speechLast.map (· + shift) }

/-- A cue as a restore commit loads it, in the current epoch; the image holds a lane above 255 as 255
(R153, R169). -/
def loadedCue (epoch : Byte) (q : Cue) : Cue :=
  { q with
    epoch := epoch
    action := match q.action with
      | .handoff lane wait => .handoff (BitVec.ofNat 16 (min lane.toNat 255)) wait
      | a => a }

/-- The state `s` with the image of the state `i` loaded into it, before the admission run that
follows; the Emission Unit's state stays (R117, R174; log 15). -/
def loaded (i s : State) : State :=
  let shift := s.timebase.e - i.timebase.e
  { s with
    timebase := { s.timebase with ticker := 0 }
    retiming := { i.retiming with
      speechTail := i.retiming.speechTail.map (· + shift), maxLateness := s.retiming.maxLateness }
    laneA := loadedLane shift i.laneA s.laneA
    laneB := loadedLane shift i.laneB s.laneB
    schedule := i.schedule.map (moved shift)
    composer := { i.composer with groups := i.composer.groups.map fun g =>
      { g with counts := none, columnsTaken := g.taken } }
    cues := i.cues.map (loadedCue s.timebase.epoch)
    floor := i.floor
    image := { state := .empty, words := [], readPos := 0, overfilled := false } }

/-! ### Images of any origin (R173, R174) -/

/-- The words of an image behind its settings and ahead of its check word, record by record. -/
structure Division where
  /-- The token records of lane A's queue, of lane B's queue and of the schedule. -/
  queueA : List (List Word)
  queueB : List (List Word)
  schedule : List (List Word)
  cells : List Word
  groups : List (Word × Word)
  cursor : Word
  spans : List (Word × Word)
  presence : Word
  entriesA : List Word
  entriesB : List Word
  cues : List (List Word)

/-- The token records of a division. -/
def Division.records (g : Division) : List (List Word) := g.queueA ++ g.queueB ++ g.schedule

/-- Word `i` of an image as a number. -/
def numberAt (ws : List Word) (i : Nat) : Nat := (ws.getD i 0).toNat

/-- How many places a presence mask marks. -/
def placesMarked (mask : Nat) : Nat := ((List.range 8).filter fun i => mask.testBit i).length

/-- The division is that of the image: its sections, read by the counts of the header and the lengths
of their records, fill the words exactly up to the check word (R173, Extent). -/
def divides (ws : List Word) (g : Division) : Prop :=
  let pair (p : Word × Word) : List Word := [p.1, p.2]
  (ws.drop 24).dropLast =
    g.records.flatten ++ g.cells ++ g.groups.flatMap pair ++ [g.cursor] ++ g.spans.flatMap pair ++
      [g.presence] ++ g.entriesA ++ g.entriesB ++ g.cues.flatten ∧
  (g.queueA.length = numberAt ws 4 / 256 ∧ g.queueB.length = numberAt ws 4 % 256 ∧
    g.schedule.length = numberAt ws 5 / 256 ∧ g.cells.length = numberAt ws 5 % 256 ∧
    g.groups.length = numberAt ws 6 / 256 ∧ g.spans.length = numberAt ws 6 % 256 ∧
    g.cues.length = numberAt ws 7 / 256) ∧
  (∀ r ∈ g.records, r.length = 6 + (numberAt r 0 % 64 + 1) / 2) ∧
  g.entriesA.length = placesMarked (g.presence.toNat % 256) ∧
  g.entriesB.length = placesMarked (g.presence.toNat / 256) ∧ ∀ r ∈ g.cues, r.length = 5

/-- The lane and serial that an identity word or a stack entry word names, lane B's from 4096 on. -/
def nameOf (w : Word) : Nat := w.toNat % 8192

/-- The names of the token records. -/
def Division.tokenNames (g : Division) : List Nat := g.records.map fun r => nameOf (r.getD 1 0)

/-- The names of the group records. -/
def Division.groupNames (g : Division) : List Nat := g.groups.map fun p => nameOf p.1

/-- The names of the spans. -/
def Division.spanNames (g : Division) : List Nat := g.spans.map fun p => nameOf p.1

/-- The names of the stack entries. -/
def Division.entryNames (g : Division) : List Nat := (g.entriesA ++ g.entriesB).map nameOf

/-- The cell that a word is, if it is a cell of the queue; a character outside the accepted set is the
blot (R184). -/
def cellNamed (w : Word) : Option Cell :=
  let n := w.toNat % 4096
  match w.toNat / 4096 with
  | 1 => if n < 256 then some (.char (shown (BitVec.ofNat 8 n))) else none
  | 2 => if n = 0 then some .marker else none
  | 3 => if n = 0 then some .roll else none
  | 4 => if 1 ≤ n ∧ n ≤ 40 then some (.erase n) else none
  | 5 => if n = 0 then some .blank else none
  | 6 => if n < 256 ∧ 1 ≤ n / 16 ∧ 2 ≤ n % 16 ∧ n % 16 ≤ 4
      then some (.placeRow (n / 16) (n % 16)) else none
  | 7 => if n < 2048 ∧ n / 64 ≤ 26 ∧ 16 ≤ n % 64 ∧ n % 64 ≤ 40
      then some (.placeCol (n / 64) (n % 64)) else none
  | _ => none

/-- The identity that a word names. -/
def idNamed (w : Word) : TokenId :=
  { lane := if w.toNat / 4096 % 2 = 0 then .a else .b, serial := BitVec.ofNat 12 (w.toNat % 4096) }

/-- The group record of a table entry: no S and E_a, columns taken equal to cells taken (R174). -/
def groupNamed (p : Word × Word) : GroupRecord :=
  { id := idNamed p.1, counts := none, composed := p.2.toNat / 256 % 64, taken := p.2.toNat % 64,
    columnsTaken := p.2.toNat % 64 }

/-- The spans, laid out from a column on (R174). -/
def laidOut (start : Nat) (ps : List (Word × Word)) : List Span :=
  match ps with
  | [] => []
  | p :: rest =>
    { id := idNamed p.1, start := start, columns := p.2.toNat } :: laidOut (start + p.2.toNat) rest

/-- The cue of five words, in the current epoch (R153, R186). -/
def cueNamed (epoch : Byte) (r : List Word) : Cue :=
  { tag := BitVec.ofNat 8 (numberAt r 0), target := numberAt r 1 + 65536 * numberAt r 2,
    epoch := epoch
    action := actionNamed (numberAt r 3 % 256) (if numberAt r 3 % 256 = 3
      then [BitVec.ofNat 16 (numberAt r 3 / 256), r.getD 4 0] else [r.getD 4 0]) }

/-- Format, Length and Sum (R173). -/
def headerPasses (b : ImageBuffer) : Prop :=
  numberAt b.words 0 = 0x4A31 ∧ numberAt b.words 1 = b.words.length ∧ b.overfilled = false ∧
  25 ≤ b.words.length ∧ (b.words.map (·.toNat)).sum % 65536 = 0

/-- Counts (R173). -/
def countsPass (g : Division) : Prop :=
  g.queueA.length ≤ 48 ∧ g.queueB.length ≤ 48 ∧ g.schedule.length ≤ 96 ∧ g.cells.length ≤ 64 ∧
  g.groups.length ≤ 64 ∧ g.spans.length ≤ 40 ∧ g.cues.length ≤ 8

/-- Token records (R173). -/
def recordsPass (g : Division) : Prop :=
  (∀ r ∈ g.records,
    let kind := numberAt r 0 / 4096
    let length := numberAt r 0 % 64
    (kind = 1 ∧ 1 ≤ length ∧ length ≤ 32) ∨ ((kind = 2 ∨ kind = 3) ∧ length = 0)) ∧
  (∀ r ∈ g.queueA, nameOf (r.getD 1 0) < 4096) ∧ ∀ r ∈ g.queueB, 4096 ≤ nameOf (r.getD 1 0)

/-- Identities (R173). -/
def identitiesPass (g : Division) : Prop :=
  (g.tokenNames ++ g.groupNames).Nodup ∧ (g.tokenNames ++ g.spanNames).Nodup ∧ g.entryNames.Nodup

/-- Layout (R173). -/
def layoutPasses (ws : List Word) : Prop :=
  validLayout (numberAt ws 15 / 4096) (numberAt ws 15 / 256 % 16) (numberAt ws 15 % 256)
    (numberAt ws 16 / 256) = true

/-- Cells (R173). -/
def cellsPass (g : Division) : Prop :=
  (∀ w ∈ g.cells, (cellNamed w).isSome = true) ∧
  (∀ p ∈ g.groups, p.2.toNat % 64 < p.2.toNat / 256 % 64 ∧ p.2.toNat / 256 % 64 ≤ 33) ∧
  runsStand (g.groups.map groupNamed) (g.cells.filterMap cellNamed)

/-- Row (R173). -/
def rowPasses (ws : List Word) (g : Division) : Prop :=
  g.cursor.toNat ≤ numberAt ws 16 / 256 ∧
  g.cursor.toNat = (g.spans.map fun p => p.2.toNat).sum ∧ ∀ p ∈ g.spans, 1 ≤ p.2.toNat

/-- Tail (R173; log 20). -/
def tailPasses (g : Division) : Prop :=
  ∀ p ∈ g.spans.getLast?,
    if nameOf p.1 ∈ g.groupNames then
      g.groupNames.getLast? = some (nameOf p.1) ∧
        ∃ w ∈ g.cells.getLast?, w.toNat / 4096 = 1 ∨ w.toNat / 4096 = 2
    else g.cells.length < 40 ∧ ∀ w ∈ g.cells, w.toNat / 4096 = 4

/-- Stack references (R173). -/
def stacksPass (g : Division) : Prop :=
  (∀ w ∈ g.entriesA, nameOf w < 4096) ∧ (∀ w ∈ g.entriesB, 4096 ≤ nameOf w) ∧
  ∀ w ∈ g.entriesA ++ g.entriesB, w.toNat / 8192 ≤ 4 →
    nameOf w ∈ g.tokenNames ++ g.groupNames ++ g.spanNames

/-- Cues (R173). -/
def cuesPass (g : Division) : Prop := ∀ r ∈ g.cues, numberAt r 3 % 256 ≤ 4

/-- The row composer that an image loads (R92, R174). -/
def loadedComposer (ws : List Word) (g : Division) : Composer :=
  { layout := ⟨numberAt ws 15 / 4096, numberAt ws 15 / 256 % 16, numberAt ws 15 % 256,
      numberAt ws 16 / 256⟩
    cells := g.cells.filterMap cellNamed, groups := g.groups.map groupNamed
    cursor := g.cursor.toNat, spans := laidOut 0 g.spans }

/-- The settings and effective values that an image loads, clamped (R37, R43, R186). -/
def loadsSettings (ws : List Word) (t : State) : Prop :=
  t.retiming.delayTarget = min (numberAt ws 8) 300 ∧
  t.retiming.delayEff = min (numberAt ws 9) 300 ∧
  t.laneA.lagTarget = min (numberAt ws 10) 300 ∧ t.laneA.lagEff = min (numberAt ws 11) 300 ∧
  t.laneB.lagTarget = min (numberAt ws 12) 300 ∧ t.laneB.lagEff = min (numberAt ws 13) 300 ∧
  t.retiming.slewMode = (if numberAt ws 14 / 8192 = 1 then .brisk else .normal) ∧
  t.retiming.lead = min (numberAt ws 14 / 512 % 16) 12 ∧
  t.retiming.horizon = max 25 (min (numberAt ws 14 % 512) 500)

/-! ### A state in order, as every step keeps it -/

/-- The speech counts that the part holds: of the tokens that wait and are timed, S_tail, S_last. -/
def speeches (s : State) : List Frame :=
  (s.laneA.queue ++ s.laneB.queue ++ s.schedule).map (·.speech) ++
  s.retiming.speechTail.toList ++ s.laneA.speechLast.toList ++ s.laneB.speechLast.toList

/-- No speech count held is so old that comparisons no longer give the true order (R54). -/
def timely (s : State) : Prop := ∀ x ∈ speeches s, (s.timebase.e - x).toNat < 2147483648

/-- The columns of the ERASE cells in a list of cells. -/
def erased (cs : List Cell) : Nat :=
  (cs.map fun c => match c with | .erase k => k | _ => 0).sum

/-- How cell queue, group records and spans stand to one another. The queue is `old` and then `own`,
the untaken cells of the groups whose spans are still on the row (`live`), in their order; ahead of
these groups come those whose row is closed (`gone`), with their cells in `old`, and ahead of the live
spans those whose cells are all taken (`out`). Either the row has been reached: nothing but ERASE
cells of its undoes is old, and they and the columns taken fit in 40 columns; or it has not: `old` ends
with the cell that opens it, and nothing of it is taken. Only the group at the front of the queue has
cells taken (R75 to R79, R107). -/
def rowStands (c : Composer) : Prop :=
  ∃ old own gone groups out live,
    c.cells = old ++ own ∧ c.groups = gone ++ groups ∧ c.spans = out ++ live ∧
    groups.map (·.id) = live.map (·.id) ∧ groups.Forall₂ (fun g sp => g.composed ≤ sp.columns) live ∧
    runsStand gone old ∧ runsStand groups own ∧ (∀ x ∈ own, isGroupCell x = true) ∧
    (∀ ahead g behind, c.groups = ahead ++ g :: behind → 0 < g.taken →
      ahead = [] ∧ ∃ x rest, c.cells = x :: rest ∧ isGroupCell x = true) ∧
    ((gone = [] ∧ (∀ x ∈ old, ∃ k, x = .erase k) ∧
        erased old + (out.map (·.columns)).sum + (groups.map (·.taken)).sum ≤ 40) ∨
      (out = [] ∧ (∀ g ∈ groups, g.taken = 0) ∧
        ∃ front x, old = front ++ [x] ∧ (x = .roll ∨ x = .blank ∨ ∃ l w, x = .placeCol l w)))

/-- A state in order, in the form that every step keeps: its image passes the checks of R173 and loads
unchanged. -/
def ordered (s : State) : Prop :=
  SettingsHold s ∧ FloorHolds s ∧ PipelineHolds s ∧ s.composer.cells.length ≤ 64 ∧
  (∀ c ∈ s.composer.cells, cellInRange c) ∧
  (∀ g ∈ s.composer.groups, g.composed ≤ 33 ∧ g.columnsTaken = g.taken) ∧
  rowStands s.composer ∧
  (∀ en ∈ s.laneA.stack ++ s.laneB.stack, en.tag = fittingTag s en) ∧
  (s.schedule.map (·.speech)).Pairwise (fun x y => precedes y x = false) ∧
  (∀ t ∈ s.schedule, ∃ tail, s.retiming.speechTail = some tail ∧ precedes tail t.speech = false) ∧
  (∀ left sp right, s.composer.spans = left ++ sp :: right →
    sp.start = (left.map (·.columns)).sum) ∧
  ∀ q ∈ s.cues, q.target < 4294967296

/-- If a restore commit would now accept the words collected, they are the image of a state in order,
as the words that a SNAPSHOT wrote are. -/
def fillFits (s : State) : Prop :=
  s.resetLow = false → s.image.state = .filling →
    ∀ tag u, exec (.restoreCommit tag []) s = .next u → u.lastOutcome.result = .done →
      ∃ i, ordered i ∧ timely i ∧ s.image.words = image i

end Sys2Proof.Expect

open Sys2Proof.Expect

/-! ### Commands and their queue -/

/-- The command at the front of the queue is carried out with the rest of the queue, and with no
command waiting the part stays as it is (the model's choice, log 1). -/
def Obligations.StepRunsFrontCommand : Prop :=
  (∀ (c : Instr) (rest : List Instr) (s : State),
    step { s with pending := c :: rest } = exec c { s with pending := rest }) ∧
  ∀ s : State, s.pending = [] → step s = .next s

/-- Every command answers a next state in every state, which may be the state it met, and none touches
the commands that wait (the model's reading and choice: that nothing stops the part is log 21, and the
one queue is log 22). -/
def Obligations.EveryCommandCompletes : Prop :=
  ∀ (c : Instr) (s : State), ∃ t, exec c s = .next t ∧ t.pending = s.pending

/-! ### The reset pin -/

/-- RESET_ASSERT gives up the pending timecode word and any framing in progress (R8), and from then
on RESET is low; the rest of the state is kept (log 8). -/
def Obligations.ResetAssertGivesUpReception : Prop :=
  ∀ s : State, exec .resetAssert s = .next { s with
    resetLow := true
    timebase := { s.timebase with pendingWord := none, framing := none } }

/-- While RESET is low every write reaches the SRAM and nothing else, every read returns the SRAM's
word, ALERT is released, and no other event acts (R180, log 8). -/
def Obligations.ResetLowOnlyPassesAccesses : Prop :=
  ∀ s : State, s.resetLow = true →
    (∀ ma w, exec (.ringWrite ma w) s = .next (written ma w s)) ∧
    (∀ q ma w, exec (.passedWrite q ma w) s = .next (written ma w s)) ∧
    (∀ q w, exec (.restorePortWrite q w) s = .next (written (spanWord 0x2451 s) w s)) ∧
    (∀ q i, exec (.take q i) s = .next (fetched (spanWord (0x2400 + i.toNat) s) s)) ∧
    (∀ q i, exec (.reread q i) s = .next (fetched (spanWord (0x2400 + i.toNat) s) s)) ∧
    (∀ q, exec (.attentionSummaryRead q) s = .next (fetched (spanWord 0x2410 s) s)) ∧
    (∀ q i, exec (.latchedLowRead q i) s = .next (fetched (spanWord (0x2410 + i.toNat) s) s)) ∧
    (∀ q, exec (.contextPortRead q) s = .next (fetched (spanWord 0x2450 s) s)) ∧
    (∀ c, isAccessOrReset c = false → exec c s = .next s) ∧
    alertLow s = false

/-- RESET_RELEASE samples the straps and gives every block its reset values; the card's SRAM and the
commands that wait are kept (R180 and each block's own reset rule; logs 9, 10, 11 and 14). -/
def Obligations.ResetReleaseLeaves : Prop :=
  ∀ (span : BitVec 5) (rate : BitVec 2) (s : State), exec (.resetRelease span rate) s = .next
    { resetLow := false, span := span, rate := rate, attention := 0,
      latches := { e := 0, headSpeech := 0, headDue := 0 }, busOut := .idle, sram := s.sram,
      timebase :=
        { state := .absent, now := 0, deadline := none, nextPulse := none, lastInternal := none,
          e := 0, pendingWord := none, framing := none, n := 0, known := false, cls := .missing,
          epoch := 0, ticker := 0 },
      laneA := { parser := { expected := 0, staging := none }, lagTarget := 0, lagEff := 0,
                 queue := [], nextSerial := 0, speechLast := none, stack := [] },
      laneB := { parser := { expected := 0, staging := none }, lagTarget := 0, lagEff := 0,
                 queue := [], nextSerial := 0, speechLast := none, stack := [] },
      directiveParser := { expected := 0, staging := none },
      retiming := { delayTarget := 0, delayEff := 0, lead := 3, horizon := 250,
                    slewMode := .normal, speechTail := none, maxLateness := 0 },
      schedule := [], floor := { state := .floorA, timer := 0 },
      composer := { layout := { base := 15, depth := 3, left := 5, width := 32 },
                    cells := [.placeRow 15 3, .placeCol 5 32], groups := [], cursor := 0,
                    spans := [] },
      emission := { blockSeq := 0, take := none, takenBlock := [0, 0, 0, 0, 0, 0, 0, 0],
                    heldCurrent := true, heldEnded := false, carry := false },
      lastOutcome := { tag := 0, code := 0, result := .done, stamp := 0 }, cues := [],
      service := .run,
      image := { state := .empty, words := [], readPos := 0, overfilled := false },
      counters :=
        { discontinuities := 0, stalled := 0, unknownKind := 0, empty := 0, substituted := 0,
          truncated := 0, bunched := 0, laneOverrun := 0, standbyShed := 0, trimmed := 0,
          stale := 0, lateTokens := 0, lateCorrections := 0, underflows := 0, missedFrames := 0,
          rereads := 0, freewheelEntries := 0, timecodeInvalid := 0, timecodeMissing := 0,
          timecodeJump := 0, refused := 0, clamped := 0, cuesFired := 0, cuesStale := 0,
          cueActionsRefused := 0, droppedDuringRestore := 0 },
      pending := s.pending }

/-- R90: the Row Composer at the release of RESET, the first block that announces its window, and the
truncated counter after the reset pin and after ZERO_COUNTS. -/
def Obligations.ComposerAtRelease : Prop :=
  (∀ (span : BitVec 5) (rate : BitVec 2) (s : State), ∃ t,
    exec (.resetRelease span rate) s = .next t ∧
    t.composer.layout = { base := 15, depth := 3, left := 5, width := 32 } ∧
    t.composer.cursor = 0 ∧ t.composer.spans = [] ∧ t.composer.groups = [] ∧
    t.composer.cells = [.placeRow 15 3, .placeCol 5 32] ∧ t.counters.truncated = 0 ∧
    ∃ u, exec (.take .inserter 0) t = .next u ∧
      u.emission.takenBlock = [0x0400, 0x60F3, 0x7160, 0, 0, 0, 0, 0x29AD]) ∧
  ∀ (tag : Byte) (s : State), s.resetLow = false →
    ∃ t, exec (.zeroCounts tag []) s = .next t ∧ t.counters.truncated = 0

/-- R1: the RATE strap is sampled at the release of RESET and at no other event, and the four strap
values give the periods of the table. -/
def Obligations.RateSampledAtRelease : Prop :=
  (∀ span rate s, ∃ t, exec (.resetRelease span rate) s = .next t ∧ t.rate = rate) ∧
  (∀ (c : Instr) (s t : State), exec c s = .next t → isRelease c = false → t.rate = s.rate) ∧
  (∀ strap : BitVec 2,
    (nominalPeriod (rateOf strap), freewheelDelay (rateOf strap), absorbWindow (rateOf strap),
        dayLength (rateOf strap)) =
      if strap = 1 then (900900, 1351350, 450450, 2592000)
      else if strap = 2 then (900900, 1351350, 450450, 2589408)
      else (1080000, 1620000, 540000, 2160000)) ∧
  rateOf 3 = rateOf 0 ∧ rateOf 0 ≠ rateOf 1 ∧ rateOf 1 ≠ rateOf 2 ∧ rateOf 0 ≠ rateOf 2

/-! ### The reference -/

/-- R2: after RESET the Timebase is in ABSENT with nothing running; in ABSENT no deadline, pulse,
tick, stall, pass timer or cue acts, and timecode words are still received; the first FP edge is a
frame event, enters LOCKED and sets the deadline; ABSENT is left only so and entered only by the reset
pin. -/
def Obligations.AbsentUntilFirstEdge : Prop :=
  (∀ span rate s, ∃ t, exec (.resetRelease span rate) s = .next t ∧ t.timebase.state = .absent ∧
    t.timebase.e = 0 ∧ t.timebase.deadline = none ∧ t.timebase.nextPulse = none) ∧
  (∀ s : State, s.timebase.state = .absent →
    (∀ o, exec (.freewheelDeadline o) s = .next s) ∧ (∀ o, exec (.nextPulse o) s = .next s) ∧
    exec .slewTick s = .next s ∧ (∀ r, exec (.recordStall r) s = .next s) ∧
    exec .passTimerExpiry s = .next s ∧ exec .cueFire s = .next s) ∧
  (∀ (s : State) (bits : List Bool), s.resetLow = false → s.timebase.state = .absent →
    s.timebase.framing = none → bits.length = 32 → ∃ w : BitVec 32,
      exec (.timecodeWord bits true) s =
        .next { s with timebase := { s.timebase with pendingWord := some w } } ∧
      ∀ i, i < 32 → w.getLsbD (31 - i) = bits.getD i false) ∧
  (∀ (s : State) elapsed o, s.resetLow = false → s.timebase.state = .absent →
    ∃ t, exec (.fpEdge elapsed o) s = .next t ∧ t.timebase.state = .locked ∧
      t.timebase.e = s.timebase.e + 1 ∧ t.timebase.nextPulse = none ∧
      t.timebase.deadline =
        some (s.timebase.now + elapsed + freewheelDelay (rateOf s.rate))) ∧
  (∀ (c : Instr) (s t : State), exec c s = .next t → s.timebase.state = .absent →
    ofReference c = false → t.timebase.state = .absent) ∧
  ∀ (c : Instr) (s t : State), exec c s = .next t → isRelease c = false →
    t.timebase.state = .absent → s.timebase.state = .absent

/-- R3: an FP edge in LOCKED, not later than the deadline, is a frame event however soon it comes,
and sets the deadline again. -/
def Obligations.LockedEdgeIsFrameEvent : Prop :=
  ∀ (s : State) elapsed o d, s.resetLow = false → s.timebase.state = .locked →
    s.timebase.deadline = some d → s.timebase.now + elapsed ≤ d →
    ∃ t, exec (.fpEdge elapsed o) s = .next t ∧ t.timebase.state = .locked ∧
      t.timebase.e = s.timebase.e + 1 ∧ t.timebase.now = s.timebase.now + elapsed ∧
      t.timebase.deadline =
        some (s.timebase.now + elapsed + freewheelDelay (rateOf s.rate))

/-- R4: the deadline in LOCKED makes an internal frame event and enters FREEWHEEL, counted and
raised; an edge at the same moment is absorbed after it, and taken before it is the frame event
itself; either way one frame event is made and the Timebase ends in LOCKED. -/
def Obligations.DeadlineEntersFreewheel : Prop :=
  ∀ (s : State) o d, s.resetLow = false → s.timebase.state = .locked →
    s.timebase.deadline = some d →
    ∃ t, exec (.freewheelDeadline o) s = .next t ∧ t.timebase.state = .freewheel ∧
      t.timebase.e = s.timebase.e + 1 ∧ t.timebase.lastInternal = some d ∧
      t.timebase.nextPulse = some (d + nominalPeriod (rateOf s.rate)) ∧
      t.timebase.deadline = none ∧
      t.counters.freewheelEntries = up s.counters.freewheelEntries ∧
      t.attention.getLsbD 4 = true ∧
      (∀ o', ∃ u, exec (.fpEdge 0 o') t = .next u ∧ u.timebase.state = .locked ∧
        u.timebase.e = s.timebase.e + 1 ∧ u.timebase.nextPulse = none ∧
        u.timebase.deadline = some (d + freewheelDelay (rateOf s.rate)) ∧
        u.counters.freewheelEntries = up s.counters.freewheelEntries ∧
        u.attention.getLsbD 4 = true) ∧
      ∀ elapsed o', s.timebase.now + elapsed = d →
        ∃ u, exec (.fpEdge elapsed o') s = .next u ∧ u.timebase.state = .locked ∧
          u.timebase.e = s.timebase.e + 1 ∧
          u.timebase.deadline = some (d + freewheelDelay (rateOf s.rate)) ∧
          u.counters.freewheelEntries = s.counters.freewheelEntries

/-- R5: the next pulse in FREEWHEEL makes an internal frame event, sets the next pulse one nominal
period later, and leaves the Timebase in FREEWHEEL, so that the next pulse can follow in its turn. -/
def Obligations.NextPulseKeepsFreewheel : Prop :=
  ∀ (s : State) o p, s.resetLow = false → s.timebase.state = .freewheel →
    s.timebase.nextPulse = some p →
    ∃ t, exec (.nextPulse o) s = .next t ∧ t.resetLow = false ∧
      t.timebase.state = .freewheel ∧ t.timebase.e = s.timebase.e + 1 ∧
      t.timebase.lastInternal = some p ∧
      t.timebase.nextPulse = some (p + nominalPeriod (rateOf s.rate)) ∧
      t.counters.freewheelEntries = s.counters.freewheelEntries

/-- R6: an FP edge in FREEWHEEL is a frame event from one absorb window after the last internal frame
event on, and is absorbed sooner; it relocks either way, and nothing is counted for that. An edge and
the next pulse at one moment make one frame event in either order. -/
def Obligations.EdgeInFreewheelRelocks : Prop :=
  ∀ (s : State) elapsed o m p, s.resetLow = false → s.timebase.state = .freewheel →
    s.timebase.lastInternal = some m → s.timebase.nextPulse = some p →
    s.timebase.now + elapsed ≤ p →
    (m + absorbWindow (rateOf s.rate) ≤ s.timebase.now + elapsed →
      ∃ t, exec (.fpEdge elapsed o) s = .next t ∧ t.timebase.state = .locked ∧
        t.timebase.e = s.timebase.e + 1 ∧ t.timebase.nextPulse = none ∧
        t.timebase.deadline =
          some (s.timebase.now + elapsed + freewheelDelay (rateOf s.rate)) ∧
        t.counters.freewheelEntries = s.counters.freewheelEntries ∧
        t.attention.getLsbD 4 = s.attention.getLsbD 4) ∧
    (s.timebase.now + elapsed < m + absorbWindow (rateOf s.rate) →
      exec (.fpEdge elapsed o) s = .next { s with timebase := { s.timebase with
        state := .locked, now := s.timebase.now + elapsed, nextPulse := none,
        deadline := some (s.timebase.now + elapsed + freewheelDelay (rateOf s.rate)) } }) ∧
    ∃ t, exec (.nextPulse o) s = .next t ∧ ∀ o', ∃ u, exec (.fpEdge 0 o') t = .next u ∧
      u.timebase.e = s.timebase.e + 1 ∧ u.timebase.state = .locked

/-- An edge that comes after the deadline, or after the next pulse, finds those internal frame events
made first (R4, R5; the running of time up to an edge is log 6). -/
def Obligations.TimeRunsUpToAnEdge : Prop :=
  ∀ (s : State) elapsed o m, s.resetLow = false → s.timebase.now ≤ m →
    m < s.timebase.now + elapsed →
    (s.timebase.state = .locked → s.timebase.deadline = some m →
      ∃ t, exec (.freewheelDeadline o) s = .next t ∧
        exec (.fpEdge elapsed o) s =
          exec (.fpEdge (s.timebase.now + elapsed - m) o) t) ∧
    (s.timebase.state = .freewheel → s.timebase.nextPulse = some m →
      ∃ t, exec (.nextPulse o) s = .next t ∧
        exec (.fpEdge elapsed o) s =
          exec (.fpEdge (s.timebase.now + elapsed - m) o) t)

/-- E moves at frame events and at the reset pin alone: every command that is neither an FP edge, the
deadline, the next pulse nor the release of RESET keeps it, RESTART and RESTORE_COMMIT among them
(R7). -/
def Obligations.FrameCountMovesOnlyAtFrameEvents : Prop :=
  ∀ (c : Instr) (s t : State), exec c s = .next t → ofReference c = false → isRelease c = false →
    t.timebase.e = s.timebase.e

/-! ### Timecode -/

/-- A framing that ends with exactly 32 sampled bits becomes the pending word, its first bit the most
significant, and replaces an earlier one; any other framing is discarded; bits sampled while TCS stays
high are kept for its end. Nothing else changes (R8, R185; log 16). Bits sampled with no framing in
progress begin one, under a TCS that has stayed high across the release of RESET too (the model's
choice, log 27). -/
def Obligations.TimecodeReception : Prop :=
  ∀ (s : State) (bits : List Bool), s.resetLow = false →
    let sampled := s.timebase.framing.getD [] ++ bits
    (sampled.length = 32 → ∃ w : BitVec 32,
      exec (.timecodeWord bits true) s = .next { s with timebase :=
        { s.timebase with framing := none, pendingWord := some w } } ∧
      ∀ i, i < 32 → w.getLsbD (31 - i) = sampled.getD i false) ∧
    (sampled.length ≠ 32 →
      exec (.timecodeWord bits true) s = .next { s with timebase :=
        { s.timebase with framing := none } }) ∧
    exec (.timecodeWord bits false) s = .next { s with timebase :=
      { s.timebase with framing := some (sampled.take 33) } }

/-- R9: which timecode words are valid at each rate; the user bits play no part. -/
def Obligations.ValidTimecodeWords : Prop :=
  (∀ (strap : BitVec 2) (w : BitVec 32),
    let h := w.toNat / 134217728
    let m := w.toNat / 2097152 % 64
    let s := w.toNat / 32768 % 64
    let f := w.toNat / 1024 % 32
    (validLabel (rateOf strap) (labelOfWord w) = true ↔
      h ≤ 23 ∧ m ≤ 59 ∧ s ≤ 59 ∧
        (if strap = 1 then f ≤ 29
         else if strap = 2 then f ≤ 29 ∧ ¬((f = 0 ∨ f = 1) ∧ s = 0 ∧ m % 10 ≠ 0)
         else f ≤ 24))) ∧
  ∀ (strap : BitVec 2) (w v : BitVec 32), w.toNat / 1024 = v.toNat / 1024 →
    validLabel (rateOf strap) (labelOfWord w) = validLabel (rateOf strap) (labelOfWord v)

/-- The frame number of a valid label at each rate; every valid label has its own N, every N below the
day length belongs to exactly one valid label, and that is the label the report shows for N
(R10, R17). -/
def Obligations.FrameNumbersCountLabels : Prop :=
  (∀ (r : Rate) (l : Label), frameNumber r l =
    match r with
    | .fps25 => 25 * (3600 * l.h + 60 * l.m + l.s) + l.f
    | .fps30 => 30 * (3600 * l.h + 60 * l.m + l.s) + l.f
    | .fps30drop => 30 * (3600 * l.h + 60 * l.m + l.s) + l.f -
        2 * (60 * l.h + l.m - (60 * l.h + l.m) / 10)) ∧
  dayLength .fps25 = 2160000 ∧ dayLength .fps30 = 2592000 ∧ dayLength .fps30drop = 2589408 ∧
  (∀ (r : Rate) (l : Label), validLabel r l = true → frameNumber r l < dayLength r) ∧
  ∀ (r : Rate) (n : Nat), n < dayLength r →
    validLabel r (labelOf r n) = true ∧ frameNumber r (labelOf r n) = n ∧
      ∀ k : Label, validLabel r k = true → frameNumber r k = n → k = labelOf r n

/-- A frame event takes the pending word as the word of the frame it opens, classifies it, sets N, the
known flag and the epoch, counts MISSING, INVALID and JUMP, and raises the JUMP cause at a JUMP and
only then (R8, R11, R12, R13). -/
def Obligations.FrameEventClassifiesTimecode : Prop :=
  ∀ (c : Instr) (s : State), opensOneFrame c s →
    ∃ t, exec c s = .next t ∧ t.timebase.e = s.timebase.e + 1 ∧ t.timebase.pendingWord = none ∧
      (t.timebase.cls, t.timebase.n, t.timebase.known, t.timebase.epoch) =
        Expect.timecode (rateOf s.rate) s.timebase ∧
      t.counters.timecodeMissing =
        upIf (decide (t.timebase.cls = .missing)) s.counters.timecodeMissing ∧
      t.counters.timecodeInvalid =
        upIf (decide (t.timebase.cls = .invalid)) s.counters.timecodeInvalid ∧
      t.counters.timecodeJump =
        upIf (decide (t.timebase.cls = .jump)) s.counters.timecodeJump ∧
      t.attention.getLsbD 5 = (s.attention.getLsbD 5 || decide (t.timebase.cls = .jump))

/-! ### The other reactions to a frame event -/

/-- The slew ticker advances at every frame event; when it reaches P it returns to 0 and both
effective lags step one frame toward their targets, and so does the effective delay when no cue is
armed that could move its target (R15, R44; the order of a DELAY cue and the tick is log 3). -/
def Obligations.FrameEventTicks : Prop :=
  ∀ (c : Instr) (s : State), opensOneFrame c s →
    let wraps := (match s.retiming.slewMode with | .normal => 12 | .brisk => 3) ≤
      s.timebase.ticker + 1
    ∃ t, exec c s = .next t ∧
      t.timebase.ticker = (if wraps then 0 else s.timebase.ticker + 1) ∧
      t.laneA.lagTarget = s.laneA.lagTarget ∧ t.laneB.lagTarget = s.laneB.lagTarget ∧
      t.laneA.lagEff =
        (if wraps then toward s.laneA.lagTarget s.laneA.lagEff else s.laneA.lagEff) ∧
      t.laneB.lagEff =
        (if wraps then toward s.laneB.lagTarget s.laneB.lagEff else s.laneB.lagEff) ∧
      (s.cues = [] → t.retiming.delayTarget = s.retiming.delayTarget ∧
        t.retiming.delayEff =
          if wraps then toward s.retiming.delayTarget s.retiming.delayEff
          else s.retiming.delayEff)

/-- At a frame event each ring's parser drops a record whose header came two frame events ago, keeps
its expected offset, and the drop is counted and raised; a younger record goes on (R23). -/
def Obligations.FrameEventStallsRecords : Prop :=
  ∀ (c : Instr) (s : State), opensOneFrame c s →
    let e := s.timebase.e + 1
    ∃ t, exec c s = .next t ∧ (∀ r, parserOf r t = afterStall e (parserOf r s)) ∧
      t.counters.stalled =
        upBy (rings.filter fun r => stalls e (parserOf r s)).length s.counters.stalled ∧
      t.attention.getLsbD 2 =
        (s.attention.getLsbD 2 || rings.any fun r => stalls e (parserOf r s))

/-- At a frame event the frame just ended is judged: missed when it had no take while cells were held,
counted and shown by CARRY in the new frame; the first frame event after reset judges nothing. The
take, the taken block and the sequence stay, and the new frame's held-cells mark is set if the queue
held a cell at the frame event or holds one after it, and is clear otherwise (R124, R125, R126). -/
def Obligations.FrameEventClosesFrame : Prop :=
  ∀ (c : Instr) (s : State), opensOneFrame c s →
    let missed := s.emission.take ≠ some s.timebase.e ∧ s.emission.heldCurrent = true
    ∃ t, exec c s = .next t ∧
      t.emission.carry =
        (if s.timebase.state = .absent then s.emission.carry else decide missed) ∧
      t.counters.missedFrames =
        upIf (decide (s.timebase.state ≠ .absent ∧ missed)) s.counters.missedFrames ∧
      t.emission.take = s.emission.take ∧ t.emission.takenBlock = s.emission.takenBlock ∧
      t.emission.blockSeq = s.emission.blockSeq ∧
      t.emission.heldCurrent = decide (s.composer.cells ≠ [] ∨ t.composer.cells ≠ [])

/-- At a frame event a JUMP retires every cue of an older epoch, counted as stale; every other cue
whose target is the new N of the current epoch fires and leaves the table, counted as fired; the rest
stay armed in their order. The fired actions are carried out one after another in arming order: so the
service state, the image buffer and D_target end, and, no HANDOFF being among them, the clamps and the
refusals are counted and a refusal raises bit 7. Where they fire behind the other reactions, the whole
outcome is that of CUE_FIREs made after the frame event without them (R157, R158, R159; log 3, and
log 24 for the states that R164 rules out). -/
def Obligations.FrameEventFiresDueCues : Prop :=
  ∀ (c : Instr) (s : State), opensOneFrame c s →
    ∃ t, exec c s = .next t ∧
      let left := s.cues.filter fun q => !outlived t.timebase q
      let due := left.filter fun q => fires t.timebase q
      let refused := if s.image.state = .filling
        then (due.filter fun q => q.action = .resume).length else 0
      t.cues = s.cues.filter (fun q => !outlived t.timebase q && !fires t.timebase q) ∧
      t.counters.cuesStale =
        upBy (s.cues.filter fun q => outlived t.timebase q).length s.counters.cuesStale ∧
      t.counters.cuesFired = upBy due.length s.counters.cuesFired ∧
      (t.service, t.image, t.retiming.delayTarget) =
        due.foldl acted (s.service, s.image, s.retiming.delayTarget) ∧
      ((∀ q ∈ due, isHandoff q = false) →
        t.counters.cueActionsRefused = upBy refused s.counters.cueActionsRefused ∧
        t.counters.clamped = upBy (due.filter overTop).length s.counters.clamped ∧
        t.attention.getLsbD 7 = (s.attention.getLsbD 7 || decide (0 < refused))) ∧
      (firesLast c → ∃ u, exec c { s with cues := [] } = .next u ∧
        firings due.length
          { u with
            cues := left, counters := { u.counters with cuesStale := t.counters.cuesStale } } t)

/-- At a frame event with no cue armed, a pass in progress loses one frame of its wait and completes
when none is left, in HELD as in RUN. Before that it can complete only by a SENT_END admission of the
release pass: in HELD, and while no token of the floor lane's queue carries SENT_END, it does not. A
completion leaves no token in the old floor lane's queue; when the timer makes it, as it does unless a
release pass asked for before it has already ended the pass, the two queues, the stacks, the schedule
and the counts of trimmed and bunched tokens end as the pass's completion makes them, before the
release pass or after it as the command asks. Without a pass the floor stays (R136, R137, R138,
R139, R141; the command's order is log 3). -/
def Obligations.FrameEventRunsPassTimer : Prop :=
  ∀ (c : Instr) (s : State), opensOneFrame c s → s.cues = [] →
    let x := floorLane s.floor.state
    let ended : Floor := { state := floorOf (otherLane x), timer := 0 }
    let lowered : Floor := { state := s.floor.state, timer := s.floor.timer - 1 }
    let noneEnds := s.service = .held ∨ ∀ k ∈ (laneOf x s).queue, k.sentEnd = false
    ∃ t, exec c s = .next t ∧
      (passTarget s.floor.state = none → t.floor = s.floor) ∧
      (passTarget s.floor.state ≠ none →
        (1 < s.floor.timer → (t.floor = lowered ∨ t.floor = ended) ∧
          (noneEnds → t.floor = lowered)) ∧
        (t.floor = ended → (laneOf x t).queue = []) ∧
        (s.floor.timer ≤ 1 → t.floor = ended ∧
          let w := atEvent t.retiming.delayEff s
          (noneEnds ∨ releasesFirst c = false ∨ (releasePass w).floor = s.floor →
            let u := releasedAround c (handedOver x) w
            t.laneA.queue = u.laneA.queue ∧ t.laneB.queue = u.laneB.queue ∧
            t.laneA.stack = u.laneA.stack ∧ t.laneB.stack = u.laneB.stack ∧
            t.schedule = u.schedule ∧ t.counters.trimmed = u.counters.trimmed ∧
            t.counters.bunched = u.counters.bunched)))

/-- An FP edge, the deadline and the next pulse, whatever frame events they make, leave the straps, the
latches, the bus, the SRAM, the last outcome, every setting but a DELAY cue's target, the layout, the
take and its block, the sequence, S_last, the next serials and the parsers' expected offsets as they
were; with no cue armed the service state, the image buffer and D_target too (R7, R23, R117, R157). -/
def Obligations.ReferenceEventsKeepTheRest : Prop :=
  ∀ (c : Instr) (s : State), ofReference c = true →
    ∃ t, exec c s = .next t ∧ t = { s with
      attention := t.attention, timebase := t.timebase
      laneA := { s.laneA with
        parser := { s.laneA.parser with staging := t.laneA.parser.staging }
        lagEff := t.laneA.lagEff, queue := t.laneA.queue, stack := t.laneA.stack }
      laneB := { s.laneB with
        parser := { s.laneB.parser with staging := t.laneB.parser.staging }
        lagEff := t.laneB.lagEff, queue := t.laneB.queue, stack := t.laneB.stack }
      directiveParser := { s.directiveParser with staging := t.directiveParser.staging }
      retiming := { s.retiming with
        delayTarget := t.retiming.delayTarget, delayEff := t.retiming.delayEff
        speechTail := t.retiming.speechTail }
      schedule := t.schedule, floor := t.floor
      composer := { t.composer with layout := s.composer.layout }
      emission := { s.emission with
        heldCurrent := t.emission.heldCurrent, heldEnded := t.emission.heldEnded
        carry := t.emission.carry }
      cues := t.cues, service := t.service, image := t.image, counters := t.counters } ∧
    (s.cues = [] → t.cues = [] ∧ t.service = s.service ∧ t.image = s.image ∧
      t.retiming.delayTarget = s.retiming.delayTarget)

/-! ### The blocks' parts of a frame event, sent alone (log 4) -/

/-- SLEW_TICK at a ticker one short of P returns the ticker to 0 and moves each effective value that
differs from its target one frame toward it; RECORD_STALL drops the staging record of a ring whose
header came two frames ago, leaves the expected offset, counts the stall and raises its cause;
PASS_TIMER_EXPIRY completes a pass whose last frame of wait is over, with its discards, its trim, its
counts and its admission run. None does anything else (R15, R23, R44, R136, R138, R139; log 4). -/
def Obligations.PartsOfAFrameEventAlone : Prop :=
  ∀ s : State, s.resetLow = false → s.timebase.state ≠ .absent →
    (s.timebase.ticker + 1 = (match s.retiming.slewMode with | .normal => 12 | .brisk => 3) →
      exec .slewTick s = .next { s with
        timebase := { s.timebase with ticker := 0 }
        retiming := { s.retiming with
          delayEff := toward s.retiming.delayTarget s.retiming.delayEff }
        laneA := { s.laneA with lagEff := toward s.laneA.lagTarget s.laneA.lagEff }
        laneB := { s.laneB with lagEff := toward s.laneB.lagTarget s.laneB.lagEff } }) ∧
    (∀ r st, (parserOf r s).staging = some st → s.timebase.e = st.startFrame + 2 →
      exec (.recordStall r) s = .next (setParser r
        { expected := (parserOf r s).expected, staging := none }
        { s with counters := { s.counters with stalled := up s.counters.stalled }
                 attention := s.attention ||| 0x04 })) ∧
    (passTarget s.floor.state ≠ none → s.floor.timer ≤ 1 →
      exec .passTimerExpiry s =
        .next (admissionRun (passed (floorLane s.floor.state) s)))

/-- CUE_FIRE takes the oldest due cue out of the table, counts it, and carries its action out as the
directive of that name would, without an outcome: a clamp counts, and a refusal changes nothing, is
counted as a refused cue action and raises bit 7 (R157; log 4). -/
def Obligations.CueFireActsAsDirective : Prop :=
  ∀ (s : State) (older younger : List Cue) (q : Cue), s.resetLow = false →
    s.timebase.state ≠ .absent → s.cues = older ++ q :: younger →
    (∀ p ∈ older, fires s.timebase p = false) → fires s.timebase q = true →
    let s' : State := { s with
      cues := older ++ younger
      counters := { s.counters with cuesFired := up s.counters.cuesFired } }
    let directive : Instr := match q.action with
      | .hold => .hold q.tag []
      | .resume => .resume q.tag []
      | .clear => .clear q.tag []
      | .handoff lane wait => .handoff q.tag [lane, wait]
      | .delay d => .delay q.tag [d]
    ∃ u, exec directive s' = .next u ∧
      exec .cueFire s = .next
        (if u.lastOutcome.result = .done ∨ u.lastOutcome.result = .clamped then
          { u with lastOutcome := s.lastOutcome }
        else { s' with
          attention := s.attention ||| 0x80
          counters := { s'.counters with
            cueActionsRefused := up s.counters.cueActionsRefused } })

/-! ### Writes of the rings, and the SRAM -/

/-- A processor write at a ring's expected offset is a header in IDLE and the next word of the staging
record in STAGING; it moves the expected offset on, and the record's last word commits it, as the
command of that record; a write away from the expected offset is a discontinuity, counted and raised,
which drops a staging record and is then taken as a header at its own offset (R20, R21, R22). -/
def Obligations.RingWritesAreFollowed : Prop :=
  ∀ (s : State) (r : Ring) (off : Nat) (w : Word), s.resetLow = false → off < ringWords r →
    let ma := spanWord (ringBase r + off) s
    let idle := setParser r { expected := after r off, staging := none } (written ma w s)
    ((parserOf r s).expected = off → (parserOf r s).staging = none →
      (wordsToCome r w = 0 → exec (.ringWrite ma w) s = exec (recordCommand r w []) idle) ∧
      (0 < wordsToCome r w → exec (.ringWrite ma w) s = .next (setParser r
        ⟨after r off, some ⟨w, [], wordsToCome r w, s.timebase.e⟩⟩ (written ma w s)))) ∧
    (∀ st, (parserOf r s).expected = off → (parserOf r s).staging = some st →
      (st.toCome ≤ 1 →
        exec (.ringWrite ma w) s = exec (recordCommand r st.header (st.body ++ [w])) idle) ∧
      (1 < st.toCome → exec (.ringWrite ma w) s = .next (setParser r
        ⟨after r off, some { st with body := st.body ++ [w], toCome := st.toCome - 1 }⟩
        (written ma w s)))) ∧
    ((parserOf r s).expected ≠ off →
      exec (.ringWrite ma w) s = exec (.ringWrite ma w)
        (setParser r { expected := off, staging := none } { s with
          counters := { s.counters with discontinuities := up s.counters.discontinuities }
          attention := s.attention ||| 0x02 }))

/-- A write that no block watches or collects reaches the SRAM and changes nothing else; a PASSED_WRITE
by the processor is a RING_WRITE at every address (the model's choice, log 13); and after any write,
watched or not, every address reads as before but the one written, which reads the word written
(R178, R179). -/
def Obligations.WritesReachTheSram : Prop :=
  ∀ s : State,
    (∀ q ma w, (q = .inserter ∨ ma.toNat / 32768 ≠ s.span.toNat ∨
        (0x2400 ≤ ma.toNat % 32768 ∧ ma.toNat % 32768 ≠ 0x2451)) →
      exec (.passedWrite q ma w) s = .next (written ma w s)) ∧
    (∀ ma w, exec (.passedWrite .processor ma w) s = exec (.ringWrite ma w) s) ∧
    (SramHolds s → ∀ q ma w, ∃ t, exec (.passedWrite q ma w) s = .next t ∧
      t.busOut = .passedWrite ∧ ∀ a : BitVec 20,
        Memory.read t.sram a.toNat = if a = ma then w else Memory.read s.sram a.toNat) ∧
    (SramHolds s → ∀ q w, ∃ t, exec (.restorePortWrite q w) s = .next t ∧
      t.busOut = .passedWrite ∧ ∀ a : BitVec 20,
        Memory.read t.sram a.toNat =
          if a = spanWord 0x2451 s then w else Memory.read s.sram a.toNat)

/-! ### Lane records -/

/-- R26: an empty record, a WORD or a CORRECT of length 0, is discarded at its commit: it makes no
token and no correction, the empty counter counts and no cause is raised; an empty WORD commits at
its header. -/
def Obligations.EmptyRecords : Prop :=
  ∀ (s : State) (x : Lane), s.resetLow = false →
    let counted (u : State) : State :=
      { u with counters := { u.counters with empty := up u.counters.empty } }
    (∀ sentEnd attach chars,
      exec (.wordRecord x sentEnd attach 0 chars) s = .next (counted s)) ∧
    exec (.correct x 0) s = .next (counted s) ∧
    ∀ w : Word, (w.toNat / 4096 = 1 ∨ w.toNat / 4096 = 4) → w.toNat % 64 = 0 →
      (laneOf x s).parser.staging = none → (laneOf x s).parser.expected < 4096 →
      let off := (laneOf x s).parser.expected
      let ma := spanWord (ringBase (.lane x) + off) s
      exec (.ringWrite ma w) s = .next (counted
        (setParser (.lane x) { expected := after (.lane x) off, staging := none }
          (written ma w s)))

/-- A record of unknown kind is counted and nothing else; while the image buffer is FILLING every
other lane record that is not empty is dropped and counted, its text uncounted; and a token record of
the floor lane is refused when its queue holds 48 tokens: no token, the overrun counted and raised,
with a WORD's cut and substitutions counted before it (R25, R29, R33; that last count is the model's
reading, log 26). -/
def Obligations.RecordsThatMakeNothing : Prop :=
  ∀ (s : State) (x : Lane), s.resetLow = false →
    (∀ kind, exec (.unknownKind x kind) s = .next { s with counters :=
      { s.counters with unknownKind := up s.counters.unknownKind } }) ∧
    (s.image.state = .filling →
      let dropped : State := { s with counters := { s.counters with
        droppedDuringRestore := up s.counters.droppedDuringRestore } }
      (∀ sentEnd attach length chars, length ≠ 0 →
        exec (.wordRecord x sentEnd attach length chars) s = .next dropped) ∧
      (∀ sentEnd attach, exec (.speakerRecord x sentEnd attach) s = .next dropped) ∧
      (∀ sentEnd attach, exec (.breakRecord x sentEnd attach) s = .next dropped) ∧
      ∀ n, n ≠ 0 → exec (.correct x n) s = .next dropped) ∧
    (s.image.state ≠ .filling → floorLane s.floor.state = x → 48 ≤ (laneOf x s).queue.length →
      ∀ c kind sentEnd attach txt k, makes c s = some (x, kind, sentEnd, attach, txt, k) →
        exec c s = .next { s with
          counters := { k with laneOverrun := up k.laneOverrun }
          attention := s.attention ||| 0x08 })

/-- A WORD, SPEAKER or BREAK record of the standby lane makes one token, which waits at the tail of
its queue with its stamp, and a WORD or SPEAKER is pushed on its lane's stack; a full queue first
sheds its oldest token, DROPPED and counted (R27, R30, R31, R34, R45, R95, R96). -/
def Obligations.StandbyRecordsWait : Prop :=
  ∀ (s : State) c x kind sentEnd attach txt k, s.resetLow = false → s.image.state ≠ .filling →
    makes c s = some (x, kind, sentEnd, attach, txt, k) → floorLane s.floor.state ≠ x →
    let u : State := { s with counters := k }
    ((laneOf x s).queue.length < 48 →
      exec c s = .next (queued (token x kind sentEnd attach txt u) u)) ∧
    ∀ t rest, (laneOf x s).queue = t :: rest → t.id.lane = x → 48 ≤ (laneOf x s).queue.length →
      let l := laneOf x s
      let v := setLane x { l with queue := rest, stack := retagged x [t.id] dropTag l.stack }
        { s with counters := { k with standbyShed := up k.standbyShed } }
      exec c s = .next (queued (token x kind sentEnd attach txt v) v)

/-- A WORD, SPEAKER or BREAK record of the floor lane makes one token, and an admission run follows:
with its queue empty and room in the schedule the token itself is admitted at once, its S raised to
S_tail, and a SENT_END then completes a pass in progress; with the schedule full it waits
(R27, R31, R58, R59, R137). -/
def Obligations.FloorRecordsAreAdmitted : Prop :=
  ∀ (s : State) c x kind sentEnd attach txt k, s.resetLow = false → s.image.state ≠ .filling →
    makes c s = some (x, kind, sentEnd, attach, txt, k) → floorLane s.floor.state = x →
    (laneOf x s).queue.length < 48 →
    let u : State := { s with counters := k }
    let t := token x kind sentEnd attach txt u
    exec c s = .next (admissionRun (queued t u)) ∧
    (96 ≤ s.schedule.length → exec c s = .next (queued t u)) ∧
    ((laneOf x s).queue = [] → s.schedule.length < 96 →
      exec c s = .next (if sentEnd = true ∧ passTarget s.floor.state ≠ none
        then admissionRun (passed x (scheduled t u)) else scheduled t u))

/-- The serial a new token receives is the first one, counting up from the next serial with wrap, that
no token of its lane holds (R30). -/
def Obligations.SerialsAreFree : Prop :=
  ∀ (s : State) (x : Lane),
    (laneOf x s).queue.length + s.schedule.length + s.composer.groups.length +
      s.composer.spans.length + (laneOf x s).stack.length < 4096 →
    let from' := (laneOf x s).nextSerial
    let n := serialFor x s
    ¬ held x s n ∧ ∀ k : Nat, k < (n - from').toNat → held x s (from' + BitVec.ofNat 12 k)

/-! ### Corrections -/

/-- A CORRECT pops its lane's entries one after another, top first; one that finds the stack empty
ends the correction and counts one underflow. A WAITING token leaves its queue, a PENDING one the
schedule with an admission run, a CLOSED one is a late correction, a DROPPED one has no effect, and
one of the row that is not its last span is a late correction (R103, R104, R105, R106). -/
def Obligations.CorrectPopsEntries : Prop :=
  ∀ (s : State) (x : Lane), s.resetLow = false → s.image.state ≠ .filling →
    ((laneOf x s).stack = [] → ∀ n, n ≠ 0 → exec (.correct x n) s = .next { s with counters :=
      { s.counters with underflows := up s.counters.underflows } }) ∧
    ∀ en rest, (laneOf x s).stack = en :: rest →
      let l := laneOf x s
      let popped := setLane x { l with stack := rest } s
      let late : State := { popped with counters :=
        { s.counters with lateCorrections := up s.counters.lateCorrections } }
      (∀ n : BitVec 6, 2 ≤ n.toNat → ∃ t, exec (.correct x 1) s = .next t ∧
        exec (.correct x n) s = exec (.correct x (n - 1)) t) ∧
      (en.tag = .waiting → exec (.correct x 1) s = .next (setLane x
        { l with stack := rest, queue := l.queue.filter fun t => t.id ≠ en.id } s)) ∧
      (en.tag = .pending → exec (.correct x 1) s = .next (admissionRun
        { popped with schedule := s.schedule.filter fun t => t.id ≠ en.id })) ∧
      (en.tag = .closed → exec (.correct x 1) s = .next late) ∧
      (en.tag = .dropped → exec (.correct x 1) s = .next popped) ∧
      (en.tag = .composed ∨ en.tag = .sending ∨ en.tag = .shown →
        (∀ left sp, s.composer.spans = left ++ [sp] → sp.id ≠ en.id) →
        exec (.correct x 1) s = .next late)

/-- The token of the last span is undone: its untaken cells and its group record go, ERASE of the
columns already taken joins the tail when there are any, the cursor moves back by the span's columns
and the span leaves; the layout, every other cell, group and span, and all tags stay
(R106, R107, R108, R109). -/
def Obligations.CorrectUndoesTheLastSpan : Prop :=
  ∀ (s : State) x en rest left sp, s.resetLow = false → s.image.state ≠ .filling →
    (laneOf x s).stack = en :: rest →
    en.tag = .composed ∨ en.tag = .sending ∨ en.tag = .shown →
    s.composer.spans = left ++ [sp] → sp.id = en.id →
    let popped := setLane x { laneOf x s with stack := rest } s
    let undone (k : Nat) (cells : List Cell) (groups : List GroupRecord) : State :=
      { popped with
        composer := { s.composer with
          cells := cells ++ (if k = 0 then [] else [.erase k]), groups := groups,
          cursor := s.composer.cursor - sp.columns, spans := left }
        emission := { s.emission with
          heldCurrent := s.emission.heldCurrent || decide (k ≠ 0) } }
    ((∀ g ∈ s.composer.groups, g.id ≠ en.id) →
      exec (.correct x 1) s =
        .next (undone sp.columns s.composer.cells s.composer.groups)) ∧
    ∀ ahead g behind front own back, s.composer.groups = ahead ++ g :: behind → g.id = en.id →
      (∀ h ∈ ahead ++ behind, h.id ≠ en.id) → s.composer.cells = front ++ own ++ back →
      (front.filter isGroupCell).length = (ahead.map fun h => h.composed - h.taken).sum →
      (∀ c ∈ own, isGroupCell c = true) → own.length = g.composed - g.taken →
      exec (.correct x 1) s = .next (undone g.columnsTaken (front ++ back) (ahead ++ behind))

/-! ### The schedule -/

/-- An admission run admits the head of the floor lane's queue while there is one and the schedule has
room, looking again at the floor after each, so that a SENT_END admitted in a pass completes it; it
ends when the queue is empty or the schedule holds 96 entries (R58, R59, R137). -/
def Obligations.AdmissionRunsAdmitTheFloorLane : Prop :=
  (∀ s : State, ((laneOf (floorLane s.floor.state) s).queue = [] ∨ 96 ≤ s.schedule.length) →
    admissionRun s = s) ∧
  (∀ (s : State) t rest, (laneOf (floorLane s.floor.state) s).queue = t :: rest →
    t.id.lane = floorLane s.floor.state → s.schedule.length < 96 →
    let x := floorLane s.floor.state
    admissionRun s = admissionRun
      (if t.sentEnd = true ∧ passTarget s.floor.state ≠ none then passed x (admitted t rest s)
       else admitted t rest s)) ∧
  ∀ s : State, let u := admissionRun s
    (laneOf (floorLane u.floor.state) u).queue = [] ∨ 96 ≤ u.schedule.length

/-- A release pass in RUN judges the head: a stale one is discarded, a ripe one whose group fits with
the reserve of eight places is composed and released, an admission run follows either, and the pass
goes on; an unripe or unfitting head, or none, ends it. In HELD there is no pass (R48 to R51, R61 to
R65, R80 to R85, R99). -/
def Obligations.ReleasePassJudgesHeads : Prop :=
  (∀ s : State, s.service = .held ∨ s.schedule = [] → releasePass s = s) ∧
  ∀ (s : State) t rest, s.service = .run → s.schedule = t :: rest →
    let stale := (s.retiming.horizon : Int) < (s.timebase.e - dueOf t s).toInt
    let ripe := (s.timebase.e - (dueOf t s - BitVec.ofNat 32 (spanOf t) + 1)).toNat < 2147483648
    let g := composition t s.composer.cursor s.composer.layout.width
    let fits := g.1.toNat + g.2.length + 8 ≤ 64 - s.composer.cells.length
    (stale → releasePass s = releasePass (admissionRun (discarded t rest s))) ∧
    (¬ stale → ¬ ripe → releasePass s = s) ∧
    (¬ stale → ripe → fits → releasePass s = releasePass (admissionRun (released t rest s))) ∧
    (¬ stale → ripe → ¬ fits → releasePass s = s)

/-- At a frame event with no cue armed, the schedule, the lane queues, the stacks, the floor, the
composed window, S_tail and the counts of stale, trimmed and bunched tokens end as a release pass and
the pass timer's step leave them, made with the new E and the stepped D_eff, the timer before the
pass or after it as the command asks. With no pass in progress only the release pass counts, and in
HELD only the timer: nothing leaves the schedule and nothing is composed (R44, R61, R65, R136, R138,
R141; the command's order is log 3). -/
def Obligations.FrameEventMakesAReleasePass : Prop :=
  ∀ (c : Instr) (s : State), opensOneFrame c s → s.cues = [] →
    ∃ t, exec c s = .next t ∧
      let w := atEvent t.retiming.delayEff s
      let u := releasedAround c timed w
      (t.schedule = u.schedule ∧ t.laneA.queue = u.laneA.queue ∧
        t.laneB.queue = u.laneB.queue ∧ t.laneA.stack = u.laneA.stack ∧
        t.laneB.stack = u.laneB.stack ∧ t.floor = u.floor ∧ t.composer = u.composer ∧
        t.retiming.speechTail = u.retiming.speechTail ∧ t.counters.stale = u.counters.stale ∧
        t.counters.trimmed = u.counters.trimmed ∧ t.counters.bunched = u.counters.bunched) ∧
      (passTarget s.floor.state = none → u = releasePass w) ∧
      (s.service = .held → u = timed w ∧ s.schedule <+: t.schedule ∧
        t.composer = s.composer ∧ t.counters.stale = s.counters.stale)

/-! ### The emission window -/

/-- The inserter's read of word 0 in a frame without a take is the take: it answers the header, freezes
the eight words of the block, which sum to 0, takes its cells, at most six, from the front of the
queue one after another as TakenCellsAdvanceGroups says, and advances the sequence; outside the
emission state only group records, the tags of stack entries and the lateness figures can change
(R52, R77, R118, R119, R120, R121). -/
def Obligations.TakeFreezesTheBlock : Prop :=
  ∀ s : State, s.resetLow = false → s.emission.take ≠ some s.timebase.e →
    let u := takeCells (min 6 s.composer.cells.length) s
    (((block s).map (·.toNat)).sum % 65536 = 0 ∧ (block s).length = 8) ∧
    exec (.take .inserter 0) s = .next { s with
      busOut := .answered (blockHeader s)
      emission := { s.emission with
        take := some s.timebase.e, takenBlock := block s, blockSeq := s.emission.blockSeq + 1 }
      composer := { s.composer with
        cells := s.composer.cells.drop 6, groups := u.composer.groups }
      laneA := { s.laneA with stack := u.laneA.stack }
      laneB := { s.laneB with stack := u.laneB.stack }
      retiming := { s.retiming with maxLateness := u.retiming.maxLateness }
      counters := { s.counters with lateTokens := u.counters.lateTokens } } ∧
    u.laneA.stack.map (·.id) = s.laneA.stack.map (·.id) ∧
    u.laneB.stack.map (·.id) = s.laneB.stack.map (·.id)

/-- The cells of a block leave one after another. A group cell counts in the front group's record; the
first makes a COMPOSED token SENDING; the last makes a SENDING token SHOWN, removes the record and
measures the lateness of a record that carries S and E_a. Every other cell just leaves
(R52, R77, R100, R121, R174). -/
def Obligations.TakenCellsAdvanceGroups : Prop :=
  ∀ (s : State) (n : Nat),
    (s.composer.cells = [] → takeCells n s = s) ∧ takeCells 0 s = s ∧
    ∀ c rest, s.composer.cells = c :: rest →
      (isGroupCell c = false → takeCells (n + 1) s =
        takeCells n { s with composer := { s.composer with cells := rest } }) ∧
      ∀ g gs, isGroupCell c = true → s.composer.groups = g :: gs →
        let first := if g.taken = 0
          then noticed [g.id] (fun t => if t = .composed then .sending else t) s else s
        let grown : GroupRecord := { g with
          taken := g.taken + 1, columnsTaken := g.columnsTaken + columns [c] }
        let last := noticed [g.id] (fun t => if t = .sending then .shown else t) first
        (g.taken + 1 < g.composed → takeCells (n + 1) s = takeCells n { first with
          composer := { s.composer with cells := rest, groups := grown :: gs } }) ∧
        (g.composed ≤ g.taken + 1 → takeCells (n + 1) s = takeCells n (measured g.counts
          { last with composer := { s.composer with cells := rest, groups := gs } }))

/-- Reads of the emission window that take nothing: the inserter's read of word 0 in a frame with a
take is a reread, counted; any other read answers the word of the taken block in such a frame, and of
the block then offered in a frame without a take, and changes nothing (R116, R118, R122, R123); the row
TAKE is the same read as the row REREAD (the model's choice, log 12). -/
def Obligations.OtherEmissionReads : Prop :=
  ∀ s : State, s.resetLow = false →
    let words := if s.emission.take = some s.timebase.e then s.emission.takenBlock else block s
    (s.emission.take = some s.timebase.e →
      exec (.reread .inserter 0) s = .next { s with
        busOut := .answered (s.emission.takenBlock.getD 0 0)
        counters := { s.counters with rereads := up s.counters.rereads } }) ∧
    (∀ q i, q = .processor ∨ i ≠ 0 →
      exec (.reread q i) s = .next { s with busOut := .answered (words.getD i.toNat 0) }) ∧
    ∀ q i, exec (.take q i) s = exec (.reread q i) s

/-! ### The report window and the two ports -/

/-- ALERT is driven low exactly while an attention bit is set. A processor read of report word 0
returns the eight attention bits and clears them, and ALERT is released; the low words
of the three pairs load the high half of the value they show, which the high words return until the
next such read; the four words of the schedule head read 0 while the schedule is empty; every other
report word changes nothing; the inserter is answered 0 and changes nothing (R17, R71, R181, R182;
log 25). -/
def Obligations.ReportReads : Prop :=
  ∀ s : State, s.resetLow = false →
    let seen (n : BitVec 6) (t : State) : State :=
      { t with busOut := .answered (BitVec.ofNat 16 ((report s).getD n.toNat 0)) }
    (alertLow s = true ↔ s.attention ≠ 0) ∧
    alertLow (seen 0 { s with attention := 0 }) = false ∧
    (∀ n, exec (.latchedLowRead .inserter n) s = .next { s with busOut := .answered 0 }) ∧
    exec (.attentionSummaryRead .inserter) s = .next { s with busOut := .answered 0 } ∧
    exec (.attentionSummaryRead .processor) s = .next (seen 0 { s with attention := 0 }) ∧
    (∀ n, exec (.latchedLowRead .processor n) s = .next (seen n
      (if n = 0 then { s with attention := 0 }
       else if n = 2 then
         { s with latches := { s.latches with e := halves s.timebase.e } }
       else if n = 23 then
         { s with latches := { s.latches with headSpeech := halves (headS s) } }
       else if n = 25 then
         { s with latches := { s.latches with headDue := halves (headD s) } }
       else s)))

/-- What a read of the context port returns and where the read position goes, in each buffer
state; the inserter's reads are passed to the SRAM and move nothing, and writes to the port change
nothing in the part (R170). -/
def Obligations.ContextPortReads : Prop :=
  ∀ s : State, s.resetLow = false →
    let p := s.image.readPos
    (s.image.state = .snapshot → p < s.image.words.length →
      exec (.contextPortRead .processor) s = .next { s with
        busOut := .answered (s.image.words.getD p 0), image := { s.image with readPos := p + 1 } }) ∧
    (s.image.state = .snapshot → p = s.image.words.length →
      exec (.contextPortRead .processor) s = .next { s with
        busOut := .answered 0xFFFF, image := { s.image with readPos := 0 } }) ∧
    (s.image.state ≠ .snapshot →
      exec (.contextPortRead .processor) s = .next { s with busOut := .answered 0xFFFE }) ∧
    exec (.contextPortRead .inserter) s = .next (fetched (spanWord 0x2450 s) s) ∧
    ∀ q w, exec (.passedWrite q (spanWord 0x2450 s) w) s =
      .next (written (spanWord 0x2450 s) w s)

/-- RESTORE_OPEN starts a fill in HELD, whatever the buffer held, and is refused STATE in RUN; while
FILLING a processor write to the restore port is collected, or finds the buffer full and marks it
overfilled; every write to the port reaches the SRAM, and the inserter's and those outside FILLING do
no more; RESTORE_ABANDON empties a FILLING buffer and is refused STATE otherwise (R171, R172). -/
def Obligations.RestoreFill : Prop :=
  ∀ (s : State) (tag : Byte), s.resetLow = false →
    (s.service = .run → exec (.restoreOpen tag []) s = .next (answered 0x0D tag .state s)) ∧
    (s.service = .held → exec (.restoreOpen tag []) s = .next (answered 0x0D tag .done
      { s with image := { state := .filling, words := [], readPos := 0, overfilled := false } })) ∧
    (s.image.state = .filling → exec (.restoreAbandon tag []) s = .next (answered 0x0F tag .done
      { s with image := { state := .empty, words := [], readPos := 0, overfilled := false } })) ∧
    (s.image.state ≠ .filling →
      exec (.restoreAbandon tag []) s = .next (answered 0x0F tag .state s)) ∧
    (∀ w, exec (.restorePortWrite .inserter w) s = .next (written (spanWord 0x2451 s) w s)) ∧
    ∀ w, exec (.restorePortWrite .processor w) s = .next (written (spanWord 0x2451 s) w
      (if s.image.state ≠ .filling then s
       else if s.image.words.length < 4608 then
         { s with image := { s.image with words := s.image.words ++ [w] } }
       else { s with image := { s.image with overfilled := true } }))

/-! ### Directives -/

/-- DELAY, LAG and LEAD set their target or value, cut to its top with CLAMPED; STALE cuts to 25 and
500; LAG refuses a lane other than 0 and 1, and SLEW a mode other than 0 and 1, with RANGE; an accepted
SLEW sets the ticker to 0. Nothing else changes, no effective value and no ticker among it (R16, R38,
R39, R40, R41, R42). -/
def Obligations.RetimingDirectives : Prop :=
  ∀ (s : State) (tag : Byte), s.resetLow = false →
    (∀ d, exec (.delay tag [d]) s = .next (answered 0x01 tag (clampedTo 300 d)
      { s with retiming := { s.retiming with delayTarget := min d.toNat 300 } })) ∧
    (∀ n l, exec (.lag tag [n, l]) s = .next
      (if 1 < n.toNat then answered 0x02 tag .range s
       else answered 0x02 tag (clampedTo 300 l) (setLane (laneNamed n.toNat)
         { laneOf (laneNamed n.toNat) s with lagTarget := min l.toNat 300 } s))) ∧
    (∀ n, exec (.lead tag [n]) s = .next (answered 0x03 tag (clampedTo 12 n)
      { s with retiming := { s.retiming with lead := min n.toNat 12 } })) ∧
    (∀ h, exec (.stale tag [h]) s = .next
      (answered 0x04 tag (if 25 ≤ h.toNat ∧ h.toNat ≤ 500 then .done else .clamped)
        { s with retiming := { s.retiming with horizon := max 25 (min h.toNat 500) } })) ∧
    ∀ mode, exec (.slew tag [mode]) s = .next
      (if 1 < mode.toNat then answered 0x05 tag .range s
       else answered 0x05 tag .done { s with
         retiming := { s.retiming with slewMode := if mode.toNat = 0 then .normal else .brisk }
         timebase := { s.timebase with ticker := 0 } })

/-- LAYOUT is refused RANGE for values that form no valid layout and FULL without two free places;
accepted, it closes the row, stores the layout and appends its PLACE pair (R73, R86, R87). -/
def Obligations.LayoutOpensAWindow : Prop :=
  ∀ (s : State) (tag : Byte) (b d l w : Word), s.resetLow = false →
    exec (.layout tag [b, d, l, w]) s = .next
      (if validLayout b.toNat d.toNat l.toNat w.toNat = false then answered 0x06 tag .range s
       else if 62 < s.composer.cells.length then answered 0x06 tag .full s
       else answered 0x06 tag .done { closed s with
         composer :=
           { layout := { base := b.toNat, depth := d.toNat, left := l.toNat, width := w.toNat }
             cells := s.composer.cells ++
               [.placeRow b.toNat d.toNat, .placeCol l.toNat w.toNat]
             groups := s.composer.groups, cursor := 0, spans := [] }
         emission := { s.emission with heldCurrent := true } })

/-- CLEAR removes every group with its untaken cells and every other cell but the last PLACE_COL and a
PLACE_ROW directly ahead of it, empties the row and appends BLANK; a token whose group goes with no
cell taken becomes DROPPED, with some taken CLOSED, and every other token of the row CLOSED; the
layout, the schedule, the queues and S_tail stay, and no lateness is measured (R88, R101, R102). -/
def Obligations.ClearWipesTheWindow : Prop :=
  ∀ (s : State) (tag : Byte), s.resetLow = false → (groupIdsOf s).Nodup →
    let others := s.composer.cells.filter fun c => !isGroupCell c
    let isCol (c : Cell) : Prop := ∃ l w, c = .placeCol l w
    let cleared (kept : List Cell) : State :=
      { s with
        laneA := { s.laneA with stack := clearedStack .a s s.laneA.stack }
        laneB := { s.laneB with stack := clearedStack .b s s.laneB.stack }
        composer := { s.composer with
          cells := kept ++ [.blank], groups := [], cursor := 0, spans := [] }
        emission := { s.emission with heldCurrent := true } }
    ((∀ c ∈ others, ¬ isCol c) →
      exec (.clear tag []) s = .next (answered 0x07 tag .done (cleared []))) ∧
    (∀ front b d l w back, others = front ++ .placeRow b d :: .placeCol l w :: back →
      (∀ c ∈ back, ¬ isCol c) →
      exec (.clear tag []) s =
        .next (answered 0x07 tag .done (cleared [.placeRow b d, .placeCol l w]))) ∧
    ∀ front l w back, others = front ++ .placeCol l w :: back → (∀ c ∈ back, ¬ isCol c) →
      (∀ left b d, front ≠ left ++ [.placeRow b d]) →
      exec (.clear tag []) s = .next (answered 0x07 tag .done (cleared [.placeCol l w]))

/-- HANDOFF, case by case: RANGE for a lane other than 0 and 1; in a pass, BUSY toward its target and a
cancel naming the floor lane; without one, SAME naming the floor lane, and else a pass is started with
its wait cut to 250, which a wait of 0 completes at once with its trims and its admission run
(R133, R134, R135, R138, R139). -/
def Obligations.HandoffCases : Prop :=
  ∀ (s : State) (tag : Byte) (n w : Word), s.resetLow = false →
    let x := floorLane s.floor.state
    exec (.handoff tag [n, w]) s = .next
      (if 1 < n.toNat then answered 0x08 tag .range s
       else if passTarget s.floor.state ≠ none then
         if laneNamed n.toNat = x then
           answered 0x08 tag .done { s with floor := { state := floorOf x, timer := 0 } }
         else answered 0x08 tag .busy s
       else if laneNamed n.toNat = x then answered 0x08 tag .same s
       else if w.toNat = 0 then answered 0x08 tag .done (admissionRun (passed x s))
       else answered 0x08 tag (clampedTo 250 w)
         { s with floor := { state := passingFrom x, timer := min w.toNat 250 } })

/-- FLUSH refuses a lane other than 0 and 1 with RANGE; else the lane's queue and schedule entries go,
each DROPPED and none counted, its S_last is unset, and an admission run follows. HOLD sets HELD from
either state; RESUME in HELD sets RUN and empties the buffer, is refused STATE while it is FILLING,
and changes nothing in RUN (R143, R163, R164). -/
def Obligations.FlushHoldAndResume : Prop :=
  ∀ (s : State) (tag : Byte), s.resetLow = false →
    (∀ n : Word, exec (.flush tag [n]) s = .next
      (if 1 < n.toNat then answered 0x09 tag .range s
       else answered 0x09 tag .done (admissionRun (flushed (laneNamed n.toNat) s)))) ∧
    exec (.hold tag []) s = .next (answered 0x0A tag .done { s with service := .held }) ∧
    (s.service = .held → s.image.state = .filling →
      exec (.resume tag []) s = .next (answered 0x0B tag .state s)) ∧
    (s.service = .held → s.image.state ≠ .filling →
      exec (.resume tag []) s = .next (answered 0x0B tag .done { s with
        service := .run
        image := { state := .empty, words := [], readPos := 0, overfilled := false } })) ∧
    (s.service = .run → s.image.state ≠ .filling →
      exec (.resume tag []) s = .next (answered 0x0B tag .done s))

/-- CUE, judged in the order of its rules: RANGE for an action above 4, MALFORMED for a count that is
not the action's, NO_TIMECODE, RANGE for an invalid label, FULL at 8 cues, PAST for a target not ahead
by half a day or less; else the cue joins the table in the current epoch (R154, R155). -/
def Obligations.CueIsJudgedAndArmed : Prop :=
  ∀ (s : State) (tag : Byte) (h m sec f act : Word) (args : List Word), s.resetLow = false →
    args.length ≤ 2 → s.timebase.n < dayLength (rateOf s.rate) →
    let l : Label := { h := h.toNat, m := m.toNat, s := sec.toNat, f := f.toNat }
    let day := dayLength (rateOf s.rate)
    let target := frameNumber (rateOf s.rate) l
    let ahead := ((target : Int) - s.timebase.n) % day
    let r : Result :=
      if 4 < act.toNat then .range
      else if args.length ≠ argumentsTaken act.toNat then .malformed
      else if s.timebase.known = false then .noTimecode
      else if validLabel (rateOf s.rate) l = false then .range
      else if 8 ≤ s.cues.length then .full
      else if ahead = 0 ∨ (day : Int) < 2 * ahead then .past
      else .done
    exec (.cue tag (h :: m :: sec :: f :: act :: args)) s = .next (answered 0x10 tag r
      (if r = .done then { s with cues := s.cues ++
        [{ tag := tag, target := target, epoch := s.timebase.epoch,
           action := actionNamed act.toNat args }] } else s))

/-- UNCUE retires every armed cue whose tag equals its parameter, with no action and no count,
and gives DONE whether it matches any; a value above 255 is refused with RANGE and retires nothing (R160). -/
def Obligations.UncueRetiresByTag : Prop :=
  ∀ (s : State) (tag : Byte) (p : Word), s.resetLow = false →
    exec (.uncue tag [p]) s = .next
      (if 255 < p.toNat then answered 0x11 tag .range s
       else answered 0x11 tag .done
         { s with cues := s.cues.filter fun q => q.tag.toNat ≠ p.toNat })

/-- ZERO_COUNTS sets the 26 counters and the maximum lateness to 0, leaves all else as it is, and its
own DONE is recorded (R150). -/
def Obligations.ZeroCountsClearsCounters : Prop :=
  ∀ (s : State) (tag : Byte), s.resetLow = false →
    exec (.zeroCounts tag []) s = .next (answered 0x12 tag .done { s with
      retiming := { s.retiming with maxLateness := 0 }
      counters :=
        { discontinuities := 0, stalled := 0, unknownKind := 0, empty := 0, substituted := 0,
          truncated := 0, bunched := 0, laneOverrun := 0, standbyShed := 0, trimmed := 0,
          stale := 0, lateTokens := 0, lateCorrections := 0, underflows := 0, missedFrames := 0,
          rereads := 0, freewheelEntries := 0, timecodeInvalid := 0, timecodeMissing := 0,
          timecodeJump := 0, refused := 0, clamped := 0, cuesFired := 0, cuesStale := 0,
          cueActionsRefused := 0, droppedDuringRestore := 0 } })

/-- RESTART is accepted with DONE in every state, and empties, discards and sets what its table
names; no token, cell or cue removed is counted, no notice is sent and no cause is raised. That the
held-cells mark becomes set is the model's reading (log 15): by R91 and R124 the PLACE pair appended
in this frame sets it, while R117 and R152 keep the Emission Unit's state (R91, R117, R124, R151,
R152). -/
def Obligations.RestartEmptiesThePipeline : Prop :=
  ∀ (s : State) (tag : Byte), s.resetLow = false →
    let emptied (l : LaneState) : LaneState :=
      { parser := { expected := l.parser.expected, staging := none }, lagTarget := l.lagTarget,
        lagEff := l.lagEff, queue := [], nextSerial := 0, speechLast := none, stack := [] }
    let y := s.composer.layout
    exec (.restart tag []) s = .next (answered 0x13 tag .done { s with
      laneA := emptied s.laneA, laneB := emptied s.laneB
      retiming := { s.retiming with speechTail := none }
      schedule := []
      composer :=
        { layout := y, cells := [.placeRow y.base y.depth, .placeCol y.left y.width],
          groups := [], cursor := 0, spans := [] }
      emission := { s.emission with heldCurrent := true }
      floor := { state := .floorA, timer := 0 }, cues := []
      image := { state := .empty, words := [], readPos := 0, overfilled := false }
      service := .run })

/-- A code that names no directive is answered UNKNOWN whatever its parameters, and a directive
whose parameter count is not one it takes MALFORMED; the state of every block stays as it was, and the
outcome is recorded and counted (R147, R148, R149). -/
def Obligations.RefusedRecordsChangeNothing : Prop :=
  ∀ s : State, s.resetLow = false →
    (∀ (code : BitVec 5) (tag : Byte) params, (code.toNat = 0 ∨ 0x14 ≤ code.toNat) →
      exec (.unknownDirective code tag params) s = .next (answered code tag .unknown s)) ∧
    ∀ c code tag n, shape c = some (code, tag, n) → n ∉ countsTaken code →
      exec c s = .next (answered code tag .malformed s)

/-! ### Snapshot and restore -/

/-- SNAPSHOT is refused STATE in RUN and while FILLING; else it writes the image of the working state,
every word of header, settings, token records, cells, group table, cursor, spans, stacks, cues and
check word as its table gives it, sets the read position to 0 and enters SNAPSHOT. The image has as
many words as its sections take, and its words sum to 0 (R166, R167, R168, R169, R186). -/
def Obligations.SnapshotWritesAnImage : Prop :=
  ∀ (s : State) (tag : Byte), s.resetLow = false →
    (s.service = .run ∨ s.image.state = .filling →
      exec (.snapshot tag []) s = .next (answered 0x0C tag .state s)) ∧
    (s.service = .held → s.image.state ≠ .filling →
      exec (.snapshot tag []) s = .next (answered 0x0C tag .done { s with
        image := { state := .snapshot, words := image s, readPos := 0, overfilled := false } })) ∧
    let tokens := tokenWordsTaken s.laneA.queue + tokenWordsTaken s.laneB.queue +
      tokenWordsTaken s.schedule
    (image s).length = 24 + tokens + s.composer.cells.length + 2 * s.composer.groups.length + 1 +
      2 * s.composer.spans.length + 1 + s.laneA.stack.length + s.laneB.stack.length +
      5 * s.cues.length + 1 ∧
    ((image s).map (·.toNat)).sum % 65536 = 0 ∧
    (image s).take 8 = [0x4A31, BitVec.ofNat 16 (image s).length,
      BitVec.ofNat 16 s.timebase.e.toNat, halves s.timebase.e,
      BitVec.ofNat 16 (256 * s.laneA.queue.length + s.laneB.queue.length),
      BitVec.ofNat 16 (256 * s.schedule.length + s.composer.cells.length),
      BitVec.ofNat 16 (256 * s.composer.groups.length + s.composer.spans.length),
      BitVec.ofNat 16 (256 * s.cues.length)] ∧
    ((image s).drop 8).take 16 = (settings s).map (BitVec.ofNat 16) ∧
    ((image s).drop (24 + tokens)).take s.composer.cells.length =
      s.composer.cells.map fun c => BitVec.ofNat 16 (cellNumber c)

/-- RESTORE_COMMIT is refused STATE outside FILLING. In FILLING an image that fails Format, Length,
Sum, Extent, Counts, Token records, Identities, Layout, Cells, Row, Tail, Stack references or Cues is
BAD_IMAGE, which empties the buffer and leaves every other state as it was; and an image that passes
them all is DONE: it loads its settings clamped, its window and its cues, sets the next serials to 0 and
empties the buffer, and keeps E and the timebase but the ticker, the Emission Unit's state, the
service state, the ring parsers, the attention bits, the latches, the SRAM and the maximum lateness
(R37, R43, R92, R149, R153, R165, R173, R174, R186; logs 15 and 20). -/
def Obligations.RestoreCommitChecksTheImage : Prop :=
  ∀ (s : State) (tag : Byte), s.resetLow = false →
    let none' : ImageBuffer := { state := .empty, words := [], readPos := 0, overfilled := false }
    let bad := answered 0x0E tag .badImage { s with image := none' }
    let ws := s.image.words
    (s.image.state ≠ .filling →
      exec (.restoreCommit tag []) s = .next (answered 0x0E tag .state s)) ∧
    (s.image.state = .filling → ¬ headerPasses s.image →
      exec (.restoreCommit tag []) s = .next bad) ∧
    (s.image.state = .filling → (∀ g, ¬ divides ws g) →
      exec (.restoreCommit tag []) s = .next bad) ∧
    (∀ g, s.image.state = .filling → divides ws g →
      ¬ countsPass g ∨ ¬ recordsPass g ∨ ¬ identitiesPass g ∨ ¬ layoutPasses ws ∨ ¬ cellsPass g ∨
        ¬ rowPasses ws g ∨ ¬ tailPasses g ∨ ¬ stacksPass g ∨ ¬ cuesPass g →
      exec (.restoreCommit tag []) s = .next bad) ∧
    ∀ g, s.image.state = .filling → headerPasses s.image → divides ws g → countsPass g →
      recordsPass g → identitiesPass g → layoutPasses ws → cellsPass g → rowPasses ws g →
      tailPasses g → stacksPass g → cuesPass g →
      ∃ t, exec (.restoreCommit tag []) s = .next t ∧
        t.lastOutcome = { tag := tag, code := 0x0E, result := .done, stamp := s.timebase.e } ∧
        loadsSettings ws t ∧ t.composer = loadedComposer ws g ∧
        t.cues = g.cues.map (cueNamed s.timebase.epoch) ∧
        t.image = none' ∧ t.service = s.service ∧ t.attention = s.attention ∧
        t.latches = s.latches ∧ t.sram = s.sram ∧ t.emission = s.emission ∧
        t.timebase = { s.timebase with ticker := 0 } ∧
        (∀ r, parserOf r t = parserOf r s) ∧ t.retiming.maxLateness = s.retiming.maxLateness ∧
        t.laneA.nextSerial = 0 ∧ t.laneB.nextSerial = 0

/-- The image of a state in order, which SnapshotWritesAnImage gives word by word, can be committed
into any part that is FILLING with it: every check of R173 passes, and the part takes over the
settings, queues, schedule, window, stacks, cues and floor of the first state, every E value moved by
the distance between the two moments, group records without S and E_a; the Emission Unit's state stays,
and an admission run follows (R58, R59, R114, R117, R138, R144, R153, R167 to R169, R173, R174). That
the held-cells mark stays is log 15, and that the run counts bunched and trimmed tokens as any run does,
where R174 keeps all counters, is log 28: both are the model's reading. -/
def Obligations.RestoreLoadsASnapshot : Prop :=
  ∀ (i s : State) (tag : Byte), SettingsHold i → FloorHolds i → PipelineHolds i → inOrder i →
    s.resetLow = false → s.image.state = .filling → s.image.words = image i →
    s.image.overfilled = false →
    exec (.restoreCommit tag []) s =
      .next (answered 0x0E tag .done (admissionRun (loaded i s)))

/-! ### What every step keeps -/

/-- Every step keeps the SRAM's canonical form, the ranges of settings and effective values, the
agreement of the timebase's state and moments with the ticker below P and N below the day length, the
bounds of the pass timer, and the agreement of service state and image buffer
(R10, R15, R37, R43, R53, R73, R131, R164, R165). -/
def Obligations.EveryStepKeepsRanges : Prop :=
  (∀ s t : State, SramHolds s → step s = .next t → SramHolds t) ∧
  (∀ s t : State, SettingsHold s → step s = .next t → SettingsHold t) ∧
  (∀ s t : State, TimebaseHolds s → step s = .next t → TimebaseHolds t) ∧
  (∀ s t : State, FloorHolds s → step s = .next t → FloorHolds t) ∧
  ∀ s t : State, ServiceHolds s → step s = .next t → ServiceHolds t

/-- Every step keeps the caption pipeline in order: no queue, stack, table or schedule over its
capacity; the composed cursor at the sum of the spans' columns and within the width; every token's
text legal and its queue its own lane's; every group record short of its last cell and the records
together matching the group cells of the cell queue; no identity borne by two live tokens, and no
token named by two stack entries (R30, R32, R57, R73, R76, R79, R94, R153). -/
def Obligations.EveryStepKeepsThePipeline : Prop :=
  ∀ s t : State, PipelineHolds s → step s = .next t → PipelineHolds t

/-- The part right after the reset pin meets every invariant, with any straps, and is in order. A state
in order meets what RestoreLoadsASnapshot asks of a state, and every step keeps it in order: each
group's run unbroken in the queue, every stack tag the one that fits where its token stands, the spans
laid out from column 0, the schedule in speech order up to S_tail. So a run keeps to it whose speech
counts stay near enough to compare and whose restore commits accept no image but that of a state in
order (R54, R57, R75 to R79, R94, R98 to R102, R107, R114, R153, R174). -/
def Obligations.ResetMeetsTheInvariants : Prop :=
  (∀ span rate, let s := State.atRelease span rate
    SramHolds s ∧ SettingsHold s ∧ TimebaseHolds s ∧ FloorHolds s ∧ ServiceHolds s ∧
      PipelineHolds s ∧ ordered s) ∧
  (SramHolds State.reset ∧ SettingsHold State.reset ∧ TimebaseHolds State.reset ∧
    FloorHolds State.reset ∧ ServiceHolds State.reset ∧ PipelineHolds State.reset ∧
    ordered State.reset) ∧
  (∀ s : State, ordered s → SettingsHold s ∧ FloorHolds s ∧ PipelineHolds s ∧ inOrder s) ∧
  ∀ s t : State, ordered s → timely s → fillFits s → step s = .next t → ordered t
end

