-- ==== Sys2Proof/Laws/State.lean ====
section
/-! SUPPORT. Lanes and parsers as read after an update, and the counters and attention bits after an
occurrence. Every other field of an update is in Laws/Frames.lean. -/

namespace Sys2Proof.Machine

@[simp] theorem otherLane_otherLane (x : Lane) : otherLane (otherLane x) = x := by
  cases x <;> rfl

theorem otherLane_ne (x : Lane) : otherLane x ≠ x := by
  cases x <;> decide

/-- A lane is one of a lane and its other. -/
theorem eq_or_eq_otherLane (x y : Lane) : y = x ∨ y = otherLane x := by
  cases x <;> cases y <;> simp [otherLane]

@[simp] theorem laneOf_setLane_same (x : Lane) (l : LaneState) (s : State) :
    laneOf x (setLane x l s) = l := by
  cases x <;> rfl

@[simp] theorem laneOf_setLane_other (x : Lane) (l : LaneState) (s : State) :
    laneOf (otherLane x) (setLane x l s) = laneOf (otherLane x) s := by
  cases x <;> rfl

theorem laneOf_setLane (x y : Lane) (l : LaneState) (s : State) :
    laneOf y (setLane x l s) = if y = x then l else laneOf y s := by
  cases x <;> cases y <;> rfl

@[simp] theorem setLane_self (x : Lane) (s : State) : setLane x (laneOf x s) s = s := by
  cases x <;> rfl

@[simp] theorem setLane_setLane (x : Lane) (l l' : LaneState) (s : State) :
    setLane x l (setLane x l' s) = setLane x l s := by
  cases x <;> rfl

/-- Replacing both lanes' parts, in either order. -/
theorem setLane_comm (x : Lane) (l l' : LaneState) (s : State) :
    setLane x l (setLane (otherLane x) l' s) = setLane (otherLane x) l' (setLane x l s) := by
  cases x <;> rfl

@[simp] theorem laneOf_a (s : State) : laneOf .a s = s.laneA := rfl
@[simp] theorem laneOf_b (s : State) : laneOf .b s = s.laneB := rfl

@[simp] theorem floorLane_floorOf (x : Lane) : floorLane (floorOf x) = x := by cases x <;> rfl
@[simp] theorem floorLane_passingFrom (x : Lane) : floorLane (passingFrom x) = x := by
  cases x <;> rfl
@[simp] theorem passTarget_floorOf (x : Lane) : passTarget (floorOf x) = none := by cases x <;> rfl
@[simp] theorem passTarget_passingFrom (x : Lane) :
    passTarget (passingFrom x) = some (otherLane x) := by
  cases x <;> rfl

/-- A floor state is FLOOR_X or PASSING_XY. -/
theorem floorState_cases (f : FloorState) :
    (passTarget f = none ∧ f = floorOf (floorLane f)) ∨
      (passTarget f = some (otherLane (floorLane f)) ∧ f = passingFrom (floorLane f)) := by
  cases f <;> simp [passTarget, floorOf, floorLane, passingFrom, otherLane]

@[simp] theorem parserOf_setParser_same (r : Ring) (p : Parser) (s : State) :
    parserOf r (setParser r p s) = p := by
  rcases r with x | _
  · cases x <;> rfl
  · rfl

/-- A parser of another ring is untouched. -/
theorem parserOf_setParser_other {r q : Ring} (h : q ≠ r) (p : Parser) (s : State) :
    parserOf q (setParser r p s) = parserOf q s := by
  rcases r with x | _ <;> rcases q with y | _
  · cases x <;> cases y <;> first | rfl | exact absurd rfl h
  · cases x <;> rfl
  · cases y <;> rfl
  · exact absurd rfl h

/-- The counter counted rises by one, saturating; the others stay (R150). -/
theorem counterValue_bumpCounter (c d : Counter) (k : Counters) :
    counterValue d (bumpCounter c k) =
      if d = c then countUp (counterValue c k) else counterValue d k := by
  cases c <;> cases d <;> rfl

/-- Two sets of counters that read the same everywhere are the same. -/
theorem counters_ext {k k' : Counters} (h : ∀ c, counterValue c k = counterValue c k') : k = k' := by
  cases k
  cases k'
  simp only [Counters.mk.injEq]
  exact ⟨h .discontinuities, h .stalled, h .unknownKind, h .empty, h .substituted, h .truncated,
    h .bunched, h .laneOverrun, h .standbyShed, h .trimmed, h .stale, h .lateTokens,
    h .lateCorrections, h .underflows, h .missedFrames, h .rereads, h .freewheelEntries,
    h .timecodeInvalid, h .timecodeMissing, h .timecodeJump, h .refused, h .clamped, h .cuesFired,
    h .cuesStale, h .cueActionsRefused, h .droppedDuringRestore⟩

@[simp] theorem count_counters (c : Counter) (s : State) :
    (count c s).counters = bumpCounter c s.counters := rfl
@[simp] theorem raise_attention (c : Cause) (s : State) :
    (raise c s).attention = s.attention ||| causeBit c := rfl

/-- A counter never falls by an occurrence, and stays at 65535 once there (R150). -/
theorem le_countUp (w : Word) : w.toNat ≤ (countUp w).toNat := by
  unfold countUp
  split
  · exact le_refl _
  · next h =>
    have : w.toNat ≠ 65535 := fun e => h (BitVec.eq_of_toNat_eq (by simpa using e))
    rw [BitVec.toNat_add]
    have := w.isLt
    simp
    omega

/-- A retagged stack has the same entries in the same order. -/
@[simp] theorem retag_ids (id : TokenId) (f : Tag → Tag) (st : List StackEntry) :
    (retag id f st).map (·.id) = st.map (·.id) := by
  simp only [retag, List.map_map]
  apply List.map_congr_left
  intro en _
  simp only [Function.comp]
  split <;> rfl

@[simp] theorem retag_length (id : TokenId) (f : Tag → Tag) (st : List StackEntry) :
    (retag id f st).length = st.length := by simp [retag]

/-- A notice changes a lane's stack by retagging and nothing else of any lane. -/
theorem laneOf_notice (id : TokenId) (f : Tag → Tag) (y : Lane) (s : State) :
    laneOf y (notice id f s) =
      if y = id.lane then { laneOf y s with stack := retag id f (laneOf y s).stack }
      else laneOf y s := by
  unfold notice setStack
  rw [laneOf_setLane]
  split
  · next h => subst h; rfl
  · rfl

end Sys2Proof.Machine
end

