-- ==== Sys2Proof/Laws/Frames.lean ====
section
/-! SUPPORT. The frame of every shared operation: the fields of the state that it leaves as they
were, said once for each. -/

namespace Sys2Proof.Machine

/-- Counting changes the counters alone. -/
@[simp] theorem count_frame (c : Counter) (s : State) :
    (count c s).resetLow = s.resetLow ∧ (count c s).span = s.span ∧ (count c s).rate = s.rate ∧
    (count c s).attention = s.attention ∧ (count c s).latches = s.latches ∧
    (count c s).busOut = s.busOut ∧ (count c s).sram = s.sram ∧ (count c s).timebase = s.timebase ∧
    (count c s).laneA = s.laneA ∧ (count c s).laneB = s.laneB ∧
    (count c s).directiveParser = s.directiveParser ∧ (count c s).retiming = s.retiming ∧
    (count c s).schedule = s.schedule ∧ (count c s).floor = s.floor ∧
    (count c s).composer = s.composer ∧ (count c s).emission = s.emission ∧
    (count c s).lastOutcome = s.lastOutcome ∧ (count c s).cues = s.cues ∧
    (count c s).service = s.service ∧ (count c s).image = s.image ∧ (count c s).pending = s.pending := by
  simp [count]

/-- So does counting more than once. -/
@[simp] theorem countTimes_frame (c : Counter) (n : Nat) (s : State) :
    (countTimes c n s).resetLow = s.resetLow ∧ (countTimes c n s).span = s.span ∧
    (countTimes c n s).rate = s.rate ∧ (countTimes c n s).attention = s.attention ∧
    (countTimes c n s).latches = s.latches ∧ (countTimes c n s).busOut = s.busOut ∧
    (countTimes c n s).sram = s.sram ∧ (countTimes c n s).timebase = s.timebase ∧
    (countTimes c n s).laneA = s.laneA ∧ (countTimes c n s).laneB = s.laneB ∧
    (countTimes c n s).directiveParser = s.directiveParser ∧
    (countTimes c n s).retiming = s.retiming ∧ (countTimes c n s).schedule = s.schedule ∧
    (countTimes c n s).floor = s.floor ∧ (countTimes c n s).composer = s.composer ∧
    (countTimes c n s).emission = s.emission ∧ (countTimes c n s).lastOutcome = s.lastOutcome ∧
    (countTimes c n s).cues = s.cues ∧ (countTimes c n s).service = s.service ∧
    (countTimes c n s).image = s.image ∧ (countTimes c n s).pending = s.pending := by
  induction n generalizing s with
  | zero => simp [countTimes]
  | succ n ih => simp [countTimes, ih]

/-- So does counting on a condition. -/
@[simp] theorem countIf_frame (c : Counter) (b : Bool) (s : State) :
    (countIf c b s).resetLow = s.resetLow ∧ (countIf c b s).span = s.span ∧
    (countIf c b s).rate = s.rate ∧ (countIf c b s).attention = s.attention ∧
    (countIf c b s).latches = s.latches ∧ (countIf c b s).busOut = s.busOut ∧
    (countIf c b s).sram = s.sram ∧ (countIf c b s).timebase = s.timebase ∧
    (countIf c b s).laneA = s.laneA ∧ (countIf c b s).laneB = s.laneB ∧
    (countIf c b s).directiveParser = s.directiveParser ∧ (countIf c b s).retiming = s.retiming ∧
    (countIf c b s).schedule = s.schedule ∧ (countIf c b s).floor = s.floor ∧
    (countIf c b s).composer = s.composer ∧ (countIf c b s).emission = s.emission ∧
    (countIf c b s).lastOutcome = s.lastOutcome ∧ (countIf c b s).cues = s.cues ∧
    (countIf c b s).service = s.service ∧ (countIf c b s).image = s.image ∧
    (countIf c b s).pending = s.pending := by
  cases b <;> simp [countIf]

/-- Raising a cause changes the attention bits alone. -/
@[simp] theorem raise_frame (c : Cause) (s : State) :
    (raise c s).resetLow = s.resetLow ∧ (raise c s).span = s.span ∧ (raise c s).rate = s.rate ∧
    (raise c s).latches = s.latches ∧ (raise c s).busOut = s.busOut ∧ (raise c s).sram = s.sram ∧
    (raise c s).timebase = s.timebase ∧ (raise c s).laneA = s.laneA ∧ (raise c s).laneB = s.laneB ∧
    (raise c s).directiveParser = s.directiveParser ∧ (raise c s).retiming = s.retiming ∧
    (raise c s).schedule = s.schedule ∧ (raise c s).floor = s.floor ∧
    (raise c s).composer = s.composer ∧ (raise c s).emission = s.emission ∧
    (raise c s).lastOutcome = s.lastOutcome ∧ (raise c s).cues = s.cues ∧
    (raise c s).service = s.service ∧ (raise c s).image = s.image ∧
    (raise c s).counters = s.counters ∧ (raise c s).pending = s.pending := by
  simp [raise]

/-- Replacing a lane's part changes the lanes alone. -/
@[simp] theorem setLane_frame (x : Lane) (l : LaneState) (s : State) :
    (setLane x l s).resetLow = s.resetLow ∧ (setLane x l s).span = s.span ∧
    (setLane x l s).rate = s.rate ∧ (setLane x l s).attention = s.attention ∧
    (setLane x l s).latches = s.latches ∧ (setLane x l s).busOut = s.busOut ∧
    (setLane x l s).sram = s.sram ∧ (setLane x l s).timebase = s.timebase ∧
    (setLane x l s).directiveParser = s.directiveParser ∧ (setLane x l s).retiming = s.retiming ∧
    (setLane x l s).schedule = s.schedule ∧ (setLane x l s).floor = s.floor ∧
    (setLane x l s).composer = s.composer ∧ (setLane x l s).emission = s.emission ∧
    (setLane x l s).lastOutcome = s.lastOutcome ∧ (setLane x l s).cues = s.cues ∧
    (setLane x l s).service = s.service ∧ (setLane x l s).image = s.image ∧
    (setLane x l s).counters = s.counters ∧ (setLane x l s).pending = s.pending := by
  cases x <;> simp [setLane]

/-- So does replacing a queue. -/
@[simp] theorem setQueue_frame (x : Lane) (q : List Token) (s : State) :
    (setQueue x q s).resetLow = s.resetLow ∧ (setQueue x q s).span = s.span ∧
    (setQueue x q s).rate = s.rate ∧ (setQueue x q s).attention = s.attention ∧
    (setQueue x q s).latches = s.latches ∧ (setQueue x q s).busOut = s.busOut ∧
    (setQueue x q s).sram = s.sram ∧ (setQueue x q s).timebase = s.timebase ∧
    (setQueue x q s).directiveParser = s.directiveParser ∧ (setQueue x q s).retiming = s.retiming ∧
    (setQueue x q s).schedule = s.schedule ∧ (setQueue x q s).floor = s.floor ∧
    (setQueue x q s).composer = s.composer ∧ (setQueue x q s).emission = s.emission ∧
    (setQueue x q s).lastOutcome = s.lastOutcome ∧ (setQueue x q s).cues = s.cues ∧
    (setQueue x q s).service = s.service ∧ (setQueue x q s).image = s.image ∧
    (setQueue x q s).counters = s.counters ∧ (setQueue x q s).pending = s.pending := by
  simp [setQueue]

/-- So does replacing a stack. -/
@[simp] theorem setStack_frame (x : Lane) (st : List StackEntry) (s : State) :
    (setStack x st s).resetLow = s.resetLow ∧ (setStack x st s).span = s.span ∧
    (setStack x st s).rate = s.rate ∧ (setStack x st s).attention = s.attention ∧
    (setStack x st s).latches = s.latches ∧ (setStack x st s).busOut = s.busOut ∧
    (setStack x st s).sram = s.sram ∧ (setStack x st s).timebase = s.timebase ∧
    (setStack x st s).directiveParser = s.directiveParser ∧
    (setStack x st s).retiming = s.retiming ∧ (setStack x st s).schedule = s.schedule ∧
    (setStack x st s).floor = s.floor ∧ (setStack x st s).composer = s.composer ∧
    (setStack x st s).emission = s.emission ∧ (setStack x st s).lastOutcome = s.lastOutcome ∧
    (setStack x st s).cues = s.cues ∧ (setStack x st s).service = s.service ∧
    (setStack x st s).image = s.image ∧ (setStack x st s).counters = s.counters ∧
    (setStack x st s).pending = s.pending := by
  simp [setStack]

/-- Replacing a parser changes the lanes or the directive parser alone. -/
@[simp] theorem setParser_frame (r : Ring) (p : Parser) (s : State) :
    (setParser r p s).resetLow = s.resetLow ∧ (setParser r p s).span = s.span ∧
    (setParser r p s).rate = s.rate ∧ (setParser r p s).attention = s.attention ∧
    (setParser r p s).latches = s.latches ∧ (setParser r p s).busOut = s.busOut ∧
    (setParser r p s).sram = s.sram ∧ (setParser r p s).timebase = s.timebase ∧
    (setParser r p s).retiming = s.retiming ∧ (setParser r p s).schedule = s.schedule ∧
    (setParser r p s).floor = s.floor ∧ (setParser r p s).composer = s.composer ∧
    (setParser r p s).emission = s.emission ∧ (setParser r p s).lastOutcome = s.lastOutcome ∧
    (setParser r p s).cues = s.cues ∧ (setParser r p s).service = s.service ∧
    (setParser r p s).image = s.image ∧ (setParser r p s).counters = s.counters ∧
    (setParser r p s).pending = s.pending := by
  cases r <;> simp [setParser]

/-- A notice changes the lanes alone. -/
@[simp] theorem notice_frame (id : TokenId) (f : Tag → Tag) (s : State) :
    (notice id f s).resetLow = s.resetLow ∧ (notice id f s).span = s.span ∧
    (notice id f s).rate = s.rate ∧ (notice id f s).attention = s.attention ∧
    (notice id f s).latches = s.latches ∧ (notice id f s).busOut = s.busOut ∧
    (notice id f s).sram = s.sram ∧ (notice id f s).timebase = s.timebase ∧
    (notice id f s).directiveParser = s.directiveParser ∧ (notice id f s).retiming = s.retiming ∧
    (notice id f s).schedule = s.schedule ∧ (notice id f s).floor = s.floor ∧
    (notice id f s).composer = s.composer ∧ (notice id f s).emission = s.emission ∧
    (notice id f s).lastOutcome = s.lastOutcome ∧ (notice id f s).cues = s.cues ∧
    (notice id f s).service = s.service ∧ (notice id f s).image = s.image ∧
    (notice id f s).counters = s.counters ∧ (notice id f s).pending = s.pending := by
  simp [notice]

/-- Discarded notices change the lanes alone. -/
@[simp] theorem noticeDiscarded_frame (ts : List Token) (s : State) :
    (noticeDiscarded ts s).resetLow = s.resetLow ∧ (noticeDiscarded ts s).span = s.span ∧
    (noticeDiscarded ts s).rate = s.rate ∧ (noticeDiscarded ts s).attention = s.attention ∧
    (noticeDiscarded ts s).latches = s.latches ∧ (noticeDiscarded ts s).busOut = s.busOut ∧
    (noticeDiscarded ts s).sram = s.sram ∧ (noticeDiscarded ts s).timebase = s.timebase ∧
    (noticeDiscarded ts s).directiveParser = s.directiveParser ∧
    (noticeDiscarded ts s).retiming = s.retiming ∧ (noticeDiscarded ts s).schedule = s.schedule ∧
    (noticeDiscarded ts s).floor = s.floor ∧ (noticeDiscarded ts s).composer = s.composer ∧
    (noticeDiscarded ts s).emission = s.emission ∧
    (noticeDiscarded ts s).lastOutcome = s.lastOutcome ∧ (noticeDiscarded ts s).cues = s.cues ∧
    (noticeDiscarded ts s).service = s.service ∧ (noticeDiscarded ts s).image = s.image ∧
    (noticeDiscarded ts s).counters = s.counters ∧ (noticeDiscarded ts s).pending = s.pending := by
  induction ts generalizing s with
  | nil => simp [noticeDiscarded]
  | cons a rest ih => simp [noticeDiscarded, ih]

/-- Closed notices change the lanes alone. -/
@[simp] theorem noticeClosed_frame (sps : List Span) (s : State) :
    (noticeClosed sps s).resetLow = s.resetLow ∧ (noticeClosed sps s).span = s.span ∧
    (noticeClosed sps s).rate = s.rate ∧ (noticeClosed sps s).attention = s.attention ∧
    (noticeClosed sps s).latches = s.latches ∧ (noticeClosed sps s).busOut = s.busOut ∧
    (noticeClosed sps s).sram = s.sram ∧ (noticeClosed sps s).timebase = s.timebase ∧
    (noticeClosed sps s).directiveParser = s.directiveParser ∧
    (noticeClosed sps s).retiming = s.retiming ∧ (noticeClosed sps s).schedule = s.schedule ∧
    (noticeClosed sps s).floor = s.floor ∧ (noticeClosed sps s).composer = s.composer ∧
    (noticeClosed sps s).emission = s.emission ∧ (noticeClosed sps s).lastOutcome = s.lastOutcome ∧
    (noticeClosed sps s).cues = s.cues ∧ (noticeClosed sps s).service = s.service ∧
    (noticeClosed sps s).image = s.image ∧ (noticeClosed sps s).counters = s.counters ∧
    (noticeClosed sps s).pending = s.pending := by
  induction sps generalizing s with
  | nil => simp [noticeClosed]
  | cons a rest ih => simp [noticeClosed, ih]

/-- Group-removed notices change the lanes alone. -/
@[simp] theorem noticeRemoved_frame (gs : List GroupRecord) (s : State) :
    (noticeRemoved gs s).resetLow = s.resetLow ∧ (noticeRemoved gs s).span = s.span ∧
    (noticeRemoved gs s).rate = s.rate ∧ (noticeRemoved gs s).attention = s.attention ∧
    (noticeRemoved gs s).latches = s.latches ∧ (noticeRemoved gs s).busOut = s.busOut ∧
    (noticeRemoved gs s).sram = s.sram ∧ (noticeRemoved gs s).timebase = s.timebase ∧
    (noticeRemoved gs s).directiveParser = s.directiveParser ∧
    (noticeRemoved gs s).retiming = s.retiming ∧ (noticeRemoved gs s).schedule = s.schedule ∧
    (noticeRemoved gs s).floor = s.floor ∧ (noticeRemoved gs s).composer = s.composer ∧
    (noticeRemoved gs s).emission = s.emission ∧ (noticeRemoved gs s).lastOutcome = s.lastOutcome ∧
    (noticeRemoved gs s).cues = s.cues ∧ (noticeRemoved gs s).service = s.service ∧
    (noticeRemoved gs s).image = s.image ∧ (noticeRemoved gs s).counters = s.counters ∧
    (noticeRemoved gs s).pending = s.pending := by
  induction gs generalizing s with
  | nil => simp [noticeRemoved]
  | cons a rest ih => simp [noticeRemoved, ih]

/-- Appending cells changes the composer and the held-cells mark. -/
@[simp] theorem appendCells_frame (cs : List Cell) (s : State) :
    (appendCells cs s).resetLow = s.resetLow ∧ (appendCells cs s).span = s.span ∧
    (appendCells cs s).rate = s.rate ∧ (appendCells cs s).attention = s.attention ∧
    (appendCells cs s).latches = s.latches ∧ (appendCells cs s).busOut = s.busOut ∧
    (appendCells cs s).sram = s.sram ∧ (appendCells cs s).timebase = s.timebase ∧
    (appendCells cs s).laneA = s.laneA ∧ (appendCells cs s).laneB = s.laneB ∧
    (appendCells cs s).directiveParser = s.directiveParser ∧
    (appendCells cs s).retiming = s.retiming ∧ (appendCells cs s).schedule = s.schedule ∧
    (appendCells cs s).floor = s.floor ∧ (appendCells cs s).lastOutcome = s.lastOutcome ∧
    (appendCells cs s).cues = s.cues ∧ (appendCells cs s).service = s.service ∧
    (appendCells cs s).image = s.image ∧ (appendCells cs s).counters = s.counters ∧
    (appendCells cs s).pending = s.pending := by
  simp [appendCells]

/-- Closing the row changes the lanes and the composer. -/
@[simp] theorem closeRow_frame (s : State) :
    (closeRow s).resetLow = s.resetLow ∧ (closeRow s).span = s.span ∧ (closeRow s).rate = s.rate ∧
    (closeRow s).attention = s.attention ∧ (closeRow s).latches = s.latches ∧
    (closeRow s).busOut = s.busOut ∧ (closeRow s).sram = s.sram ∧
    (closeRow s).timebase = s.timebase ∧ (closeRow s).directiveParser = s.directiveParser ∧
    (closeRow s).retiming = s.retiming ∧ (closeRow s).schedule = s.schedule ∧
    (closeRow s).floor = s.floor ∧ (closeRow s).emission = s.emission ∧
    (closeRow s).lastOutcome = s.lastOutcome ∧ (closeRow s).cues = s.cues ∧
    (closeRow s).service = s.service ∧ (closeRow s).image = s.image ∧
    (closeRow s).counters = s.counters ∧ (closeRow s).pending = s.pending := by
  simp [closeRow]

/-- A trim changes the lanes and the counters. -/
@[simp] theorem trimTokens_frame (ts : List Token) (s : State) :
    (trimTokens ts s).resetLow = s.resetLow ∧ (trimTokens ts s).span = s.span ∧
    (trimTokens ts s).rate = s.rate ∧ (trimTokens ts s).attention = s.attention ∧
    (trimTokens ts s).latches = s.latches ∧ (trimTokens ts s).busOut = s.busOut ∧
    (trimTokens ts s).sram = s.sram ∧ (trimTokens ts s).timebase = s.timebase ∧
    (trimTokens ts s).directiveParser = s.directiveParser ∧
    (trimTokens ts s).retiming = s.retiming ∧ (trimTokens ts s).schedule = s.schedule ∧
    (trimTokens ts s).floor = s.floor ∧ (trimTokens ts s).composer = s.composer ∧
    (trimTokens ts s).emission = s.emission ∧ (trimTokens ts s).lastOutcome = s.lastOutcome ∧
    (trimTokens ts s).cues = s.cues ∧ (trimTokens ts s).service = s.service ∧
    (trimTokens ts s).image = s.image ∧ (trimTokens ts s).pending = s.pending := by
  simp [trimTokens]

/-- Completing a pass changes the lanes, the counters and the floor. -/
@[simp] theorem completePass_frame (x : Lane) (s : State) :
    (completePass x s).resetLow = s.resetLow ∧ (completePass x s).span = s.span ∧
    (completePass x s).rate = s.rate ∧ (completePass x s).attention = s.attention ∧
    (completePass x s).latches = s.latches ∧ (completePass x s).busOut = s.busOut ∧
    (completePass x s).sram = s.sram ∧ (completePass x s).timebase = s.timebase ∧
    (completePass x s).directiveParser = s.directiveParser ∧
    (completePass x s).retiming = s.retiming ∧ (completePass x s).schedule = s.schedule ∧
    (completePass x s).composer = s.composer ∧ (completePass x s).emission = s.emission ∧
    (completePass x s).lastOutcome = s.lastOutcome ∧ (completePass x s).cues = s.cues ∧
    (completePass x s).service = s.service ∧ (completePass x s).image = s.image ∧
    (completePass x s).pending = s.pending := by
  simp [completePass]

/-- A SENT_END notice changes no more than a completion does. -/
@[simp] theorem sentEndAdmitted_frame (x : Lane) (s : State) :
    (sentEndAdmitted x s).resetLow = s.resetLow ∧ (sentEndAdmitted x s).span = s.span ∧
    (sentEndAdmitted x s).rate = s.rate ∧ (sentEndAdmitted x s).attention = s.attention ∧
    (sentEndAdmitted x s).latches = s.latches ∧ (sentEndAdmitted x s).busOut = s.busOut ∧
    (sentEndAdmitted x s).sram = s.sram ∧ (sentEndAdmitted x s).timebase = s.timebase ∧
    (sentEndAdmitted x s).directiveParser = s.directiveParser ∧
    (sentEndAdmitted x s).retiming = s.retiming ∧ (sentEndAdmitted x s).schedule = s.schedule ∧
    (sentEndAdmitted x s).composer = s.composer ∧ (sentEndAdmitted x s).emission = s.emission ∧
    (sentEndAdmitted x s).lastOutcome = s.lastOutcome ∧ (sentEndAdmitted x s).cues = s.cues ∧
    (sentEndAdmitted x s).service = s.service ∧ (sentEndAdmitted x s).image = s.image ∧
    (sentEndAdmitted x s).pending = s.pending := by
  unfold sentEndAdmitted
  try dsimp only
  (repeat' split) <;> simp

/-- An admission changes the lanes, S_tail, the schedule, the counters and the floor. -/
@[simp] theorem admitToken_frame (x : Lane) (t : Token) (rest : List Token) (s : State) :
    (admitToken x t rest s).resetLow = s.resetLow ∧ (admitToken x t rest s).span = s.span ∧
    (admitToken x t rest s).rate = s.rate ∧ (admitToken x t rest s).attention = s.attention ∧
    (admitToken x t rest s).latches = s.latches ∧ (admitToken x t rest s).busOut = s.busOut ∧
    (admitToken x t rest s).sram = s.sram ∧ (admitToken x t rest s).timebase = s.timebase ∧
    (admitToken x t rest s).directiveParser = s.directiveParser ∧
    (admitToken x t rest s).composer = s.composer ∧ (admitToken x t rest s).emission = s.emission ∧
    (admitToken x t rest s).lastOutcome = s.lastOutcome ∧ (admitToken x t rest s).cues = s.cues ∧
    (admitToken x t rest s).service = s.service ∧ (admitToken x t rest s).image = s.image ∧
    (admitToken x t rest s).pending = s.pending := by
  unfold admitToken
  try dsimp only
  (repeat' split) <;> simp

/-- An admission run changes what admissions change. -/
@[simp] theorem admitUpTo_frame (fuel : Nat) (s : State) :
    (admitUpTo fuel s).resetLow = s.resetLow ∧ (admitUpTo fuel s).span = s.span ∧
    (admitUpTo fuel s).rate = s.rate ∧ (admitUpTo fuel s).attention = s.attention ∧
    (admitUpTo fuel s).latches = s.latches ∧ (admitUpTo fuel s).busOut = s.busOut ∧
    (admitUpTo fuel s).sram = s.sram ∧ (admitUpTo fuel s).timebase = s.timebase ∧
    (admitUpTo fuel s).directiveParser = s.directiveParser ∧
    (admitUpTo fuel s).composer = s.composer ∧ (admitUpTo fuel s).emission = s.emission ∧
    (admitUpTo fuel s).lastOutcome = s.lastOutcome ∧ (admitUpTo fuel s).cues = s.cues ∧
    (admitUpTo fuel s).service = s.service ∧ (admitUpTo fuel s).image = s.image ∧
    (admitUpTo fuel s).pending = s.pending := by
  induction fuel generalizing s with
  | zero => simp [admitUpTo]
  | succ n ih =>
    unfold admitUpTo
    try dsimp only
    (repeat' split) <;> simp [ih]

/-- So does the run with its bound. -/
@[simp] theorem admissionRun_frame (s : State) :
    (admissionRun s).resetLow = s.resetLow ∧ (admissionRun s).span = s.span ∧
    (admissionRun s).rate = s.rate ∧ (admissionRun s).attention = s.attention ∧
    (admissionRun s).latches = s.latches ∧ (admissionRun s).busOut = s.busOut ∧
    (admissionRun s).sram = s.sram ∧ (admissionRun s).timebase = s.timebase ∧
    (admissionRun s).directiveParser = s.directiveParser ∧ (admissionRun s).composer = s.composer ∧
    (admissionRun s).emission = s.emission ∧ (admissionRun s).lastOutcome = s.lastOutcome ∧
    (admissionRun s).cues = s.cues ∧ (admissionRun s).service = s.service ∧
    (admissionRun s).image = s.image ∧ (admissionRun s).pending = s.pending := by
  simp [admissionRun]

/-- So does a completion with its run. -/
@[simp] theorem completePassAndAdmit_frame (x : Lane) (s : State) :
    (completePassAndAdmit x s).resetLow = s.resetLow ∧ (completePassAndAdmit x s).span = s.span ∧
    (completePassAndAdmit x s).rate = s.rate ∧ (completePassAndAdmit x s).attention = s.attention ∧
    (completePassAndAdmit x s).latches = s.latches ∧ (completePassAndAdmit x s).busOut = s.busOut ∧
    (completePassAndAdmit x s).sram = s.sram ∧ (completePassAndAdmit x s).timebase = s.timebase ∧
    (completePassAndAdmit x s).directiveParser = s.directiveParser ∧
    (completePassAndAdmit x s).composer = s.composer ∧
    (completePassAndAdmit x s).emission = s.emission ∧
    (completePassAndAdmit x s).lastOutcome = s.lastOutcome ∧
    (completePassAndAdmit x s).cues = s.cues ∧ (completePassAndAdmit x s).service = s.service ∧
    (completePassAndAdmit x s).image = s.image ∧ (completePassAndAdmit x s).pending = s.pending := by
  simp [completePassAndAdmit]

/-- So does the pass timer's step. -/
@[simp] theorem passTimerStep_frame (s : State) :
    (passTimerStep s).resetLow = s.resetLow ∧ (passTimerStep s).span = s.span ∧
    (passTimerStep s).rate = s.rate ∧ (passTimerStep s).attention = s.attention ∧
    (passTimerStep s).latches = s.latches ∧ (passTimerStep s).busOut = s.busOut ∧
    (passTimerStep s).sram = s.sram ∧ (passTimerStep s).timebase = s.timebase ∧
    (passTimerStep s).directiveParser = s.directiveParser ∧
    (passTimerStep s).composer = s.composer ∧ (passTimerStep s).emission = s.emission ∧
    (passTimerStep s).lastOutcome = s.lastOutcome ∧ (passTimerStep s).cues = s.cues ∧
    (passTimerStep s).service = s.service ∧ (passTimerStep s).image = s.image ∧
    (passTimerStep s).pending = s.pending := by
  unfold passTimerStep
  try dsimp only
  (repeat' split) <;> simp

/-- So does the start of a pass. -/
@[simp] theorem startPass_frame (x : Lane) (wait : Nat) (s : State) :
    (startPass x wait s).resetLow = s.resetLow ∧ (startPass x wait s).span = s.span ∧
    (startPass x wait s).rate = s.rate ∧ (startPass x wait s).attention = s.attention ∧
    (startPass x wait s).latches = s.latches ∧ (startPass x wait s).busOut = s.busOut ∧
    (startPass x wait s).sram = s.sram ∧ (startPass x wait s).timebase = s.timebase ∧
    (startPass x wait s).directiveParser = s.directiveParser ∧
    (startPass x wait s).composer = s.composer ∧ (startPass x wait s).emission = s.emission ∧
    (startPass x wait s).lastOutcome = s.lastOutcome ∧ (startPass x wait s).cues = s.cues ∧
    (startPass x wait s).service = s.service ∧ (startPass x wait s).image = s.image ∧
    (startPass x wait s).pending = s.pending := by
  unfold startPass
  try dsimp only
  (repeat' split) <;> simp

/-- So does HANDOFF. -/
@[simp] theorem handoff_frame (lane wait : Word) (s : State) :
    ((handoff lane wait s).1).resetLow = s.resetLow ∧ ((handoff lane wait s).1).span = s.span ∧
    ((handoff lane wait s).1).rate = s.rate ∧ ((handoff lane wait s).1).attention = s.attention ∧
    ((handoff lane wait s).1).latches = s.latches ∧ ((handoff lane wait s).1).busOut = s.busOut ∧
    ((handoff lane wait s).1).sram = s.sram ∧ ((handoff lane wait s).1).timebase = s.timebase ∧
    ((handoff lane wait s).1).directiveParser = s.directiveParser ∧
    ((handoff lane wait s).1).composer = s.composer ∧
    ((handoff lane wait s).1).emission = s.emission ∧
    ((handoff lane wait s).1).lastOutcome = s.lastOutcome ∧
    ((handoff lane wait s).1).cues = s.cues ∧ ((handoff lane wait s).1).service = s.service ∧
    ((handoff lane wait s).1).image = s.image ∧ ((handoff lane wait s).1).pending = s.pending := by
  unfold handoff
  try dsimp only
  (repeat' split) <;> simp

/-- So does FLUSH. -/
@[simp] theorem flushLane_frame (x : Lane) (s : State) :
    (flushLane x s).resetLow = s.resetLow ∧ (flushLane x s).span = s.span ∧
    (flushLane x s).rate = s.rate ∧ (flushLane x s).attention = s.attention ∧
    (flushLane x s).latches = s.latches ∧ (flushLane x s).busOut = s.busOut ∧
    (flushLane x s).sram = s.sram ∧ (flushLane x s).timebase = s.timebase ∧
    (flushLane x s).directiveParser = s.directiveParser ∧ (flushLane x s).composer = s.composer ∧
    (flushLane x s).emission = s.emission ∧ (flushLane x s).lastOutcome = s.lastOutcome ∧
    (flushLane x s).cues = s.cues ∧ (flushLane x s).service = s.service ∧
    (flushLane x s).image = s.image ∧ (flushLane x s).pending = s.pending := by
  simp [flushLane]

/-- So does FLUSH by directive. -/
@[simp] theorem flush_frame (lane : Word) (s : State) :
    ((flush lane s).1).resetLow = s.resetLow ∧ ((flush lane s).1).span = s.span ∧
    ((flush lane s).1).rate = s.rate ∧ ((flush lane s).1).attention = s.attention ∧
    ((flush lane s).1).latches = s.latches ∧ ((flush lane s).1).busOut = s.busOut ∧
    ((flush lane s).1).sram = s.sram ∧ ((flush lane s).1).timebase = s.timebase ∧
    ((flush lane s).1).directiveParser = s.directiveParser ∧
    ((flush lane s).1).composer = s.composer ∧ ((flush lane s).1).emission = s.emission ∧
    ((flush lane s).1).lastOutcome = s.lastOutcome ∧ ((flush lane s).1).cues = s.cues ∧
    ((flush lane s).1).service = s.service ∧ ((flush lane s).1).image = s.image ∧
    ((flush lane s).1).pending = s.pending := by
  unfold flush
  try dsimp only
  (repeat' split) <;> simp

/-- A ROLL changes the lanes, the composer and the held-cells mark. -/
@[simp] theorem composeRoll_frame (s : State) :
    (composeRoll s).resetLow = s.resetLow ∧ (composeRoll s).span = s.span ∧
    (composeRoll s).rate = s.rate ∧ (composeRoll s).attention = s.attention ∧
    (composeRoll s).latches = s.latches ∧ (composeRoll s).busOut = s.busOut ∧
    (composeRoll s).sram = s.sram ∧ (composeRoll s).timebase = s.timebase ∧
    (composeRoll s).directiveParser = s.directiveParser ∧ (composeRoll s).retiming = s.retiming ∧
    (composeRoll s).schedule = s.schedule ∧ (composeRoll s).floor = s.floor ∧
    (composeRoll s).lastOutcome = s.lastOutcome ∧ (composeRoll s).cues = s.cues ∧
    (composeRoll s).service = s.service ∧ (composeRoll s).image = s.image ∧
    (composeRoll s).counters = s.counters ∧ (composeRoll s).pending = s.pending := by
  simp [composeRoll]

/-- Composing a group changes the composer and the held-cells mark. -/
@[simp] theorem composeGroup_frame (t : Token) (cs : List Cell) (s : State) :
    (composeGroup t cs s).resetLow = s.resetLow ∧ (composeGroup t cs s).span = s.span ∧
    (composeGroup t cs s).rate = s.rate ∧ (composeGroup t cs s).attention = s.attention ∧
    (composeGroup t cs s).latches = s.latches ∧ (composeGroup t cs s).busOut = s.busOut ∧
    (composeGroup t cs s).sram = s.sram ∧ (composeGroup t cs s).timebase = s.timebase ∧
    (composeGroup t cs s).laneA = s.laneA ∧ (composeGroup t cs s).laneB = s.laneB ∧
    (composeGroup t cs s).directiveParser = s.directiveParser ∧
    (composeGroup t cs s).retiming = s.retiming ∧ (composeGroup t cs s).schedule = s.schedule ∧
    (composeGroup t cs s).floor = s.floor ∧ (composeGroup t cs s).lastOutcome = s.lastOutcome ∧
    (composeGroup t cs s).cues = s.cues ∧ (composeGroup t cs s).service = s.service ∧
    (composeGroup t cs s).image = s.image ∧ (composeGroup t cs s).counters = s.counters ∧
    (composeGroup t cs s).pending = s.pending := by
  unfold composeGroup
  try dsimp only
  (repeat' split) <;> simp

/-- Composing a token changes the lanes, the composer, the held-cells mark and the counters. -/
@[simp] theorem composeToken_frame (t : Token) (s : State) :
    (composeToken t s).resetLow = s.resetLow ∧ (composeToken t s).span = s.span ∧
    (composeToken t s).rate = s.rate ∧ (composeToken t s).attention = s.attention ∧
    (composeToken t s).latches = s.latches ∧ (composeToken t s).busOut = s.busOut ∧
    (composeToken t s).sram = s.sram ∧ (composeToken t s).timebase = s.timebase ∧
    (composeToken t s).directiveParser = s.directiveParser ∧
    (composeToken t s).retiming = s.retiming ∧ (composeToken t s).schedule = s.schedule ∧
    (composeToken t s).floor = s.floor ∧ (composeToken t s).lastOutcome = s.lastOutcome ∧
    (composeToken t s).cues = s.cues ∧ (composeToken t s).service = s.service ∧
    (composeToken t s).image = s.image ∧ (composeToken t s).pending = s.pending := by
  unfold composeToken
  try dsimp only
  (repeat' split) <;> simp

/-- LAYOUT changes the lanes, the composer and the held-cells mark. -/
@[simp] theorem layoutDirective_frame (base depth left width : Word) (s : State) :
    ((layoutDirective base depth left width s).1).resetLow = s.resetLow ∧
    ((layoutDirective base depth left width s).1).span = s.span ∧
    ((layoutDirective base depth left width s).1).rate = s.rate ∧
    ((layoutDirective base depth left width s).1).attention = s.attention ∧
    ((layoutDirective base depth left width s).1).latches = s.latches ∧
    ((layoutDirective base depth left width s).1).busOut = s.busOut ∧
    ((layoutDirective base depth left width s).1).sram = s.sram ∧
    ((layoutDirective base depth left width s).1).timebase = s.timebase ∧
    ((layoutDirective base depth left width s).1).directiveParser = s.directiveParser ∧
    ((layoutDirective base depth left width s).1).retiming = s.retiming ∧
    ((layoutDirective base depth left width s).1).schedule = s.schedule ∧
    ((layoutDirective base depth left width s).1).floor = s.floor ∧
    ((layoutDirective base depth left width s).1).lastOutcome = s.lastOutcome ∧
    ((layoutDirective base depth left width s).1).cues = s.cues ∧
    ((layoutDirective base depth left width s).1).service = s.service ∧
    ((layoutDirective base depth left width s).1).image = s.image ∧
    ((layoutDirective base depth left width s).1).counters = s.counters ∧
    ((layoutDirective base depth left width s).1).pending = s.pending := by
  unfold layoutDirective
  try dsimp only
  (repeat' split) <;> simp

/-- CLEAR changes the lanes, the composer and the held-cells mark. -/
@[simp] theorem clearWindow_frame (s : State) :
    (clearWindow s).resetLow = s.resetLow ∧ (clearWindow s).span = s.span ∧
    (clearWindow s).rate = s.rate ∧ (clearWindow s).attention = s.attention ∧
    (clearWindow s).latches = s.latches ∧ (clearWindow s).busOut = s.busOut ∧
    (clearWindow s).sram = s.sram ∧ (clearWindow s).timebase = s.timebase ∧
    (clearWindow s).directiveParser = s.directiveParser ∧ (clearWindow s).retiming = s.retiming ∧
    (clearWindow s).schedule = s.schedule ∧ (clearWindow s).floor = s.floor ∧
    (clearWindow s).lastOutcome = s.lastOutcome ∧ (clearWindow s).cues = s.cues ∧
    (clearWindow s).service = s.service ∧ (clearWindow s).image = s.image ∧
    (clearWindow s).counters = s.counters ∧ (clearWindow s).pending = s.pending := by
  simp [clearWindow]

/-- An undo changes the composer and the held-cells mark. -/
@[simp] theorem undoLast_frame (sp : Span) (s : State) :
    (undoLast sp s).resetLow = s.resetLow ∧ (undoLast sp s).span = s.span ∧
    (undoLast sp s).rate = s.rate ∧ (undoLast sp s).attention = s.attention ∧
    (undoLast sp s).latches = s.latches ∧ (undoLast sp s).busOut = s.busOut ∧
    (undoLast sp s).sram = s.sram ∧ (undoLast sp s).timebase = s.timebase ∧
    (undoLast sp s).laneA = s.laneA ∧ (undoLast sp s).laneB = s.laneB ∧
    (undoLast sp s).directiveParser = s.directiveParser ∧ (undoLast sp s).retiming = s.retiming ∧
    (undoLast sp s).schedule = s.schedule ∧ (undoLast sp s).floor = s.floor ∧
    (undoLast sp s).lastOutcome = s.lastOutcome ∧ (undoLast sp s).cues = s.cues ∧
    (undoLast sp s).service = s.service ∧ (undoLast sp s).image = s.image ∧
    (undoLast sp s).counters = s.counters ∧ (undoLast sp s).pending = s.pending := by
  unfold undoLast
  try dsimp only
  (repeat' split) <;> simp

/-- A stale discard changes what admissions change. -/
@[simp] theorem discardHead_frame (t : Token) (rest : List Token) (s : State) :
    (discardHead t rest s).resetLow = s.resetLow ∧ (discardHead t rest s).span = s.span ∧
    (discardHead t rest s).rate = s.rate ∧ (discardHead t rest s).attention = s.attention ∧
    (discardHead t rest s).latches = s.latches ∧ (discardHead t rest s).busOut = s.busOut ∧
    (discardHead t rest s).sram = s.sram ∧ (discardHead t rest s).timebase = s.timebase ∧
    (discardHead t rest s).directiveParser = s.directiveParser ∧
    (discardHead t rest s).composer = s.composer ∧ (discardHead t rest s).emission = s.emission ∧
    (discardHead t rest s).lastOutcome = s.lastOutcome ∧ (discardHead t rest s).cues = s.cues ∧
    (discardHead t rest s).service = s.service ∧ (discardHead t rest s).image = s.image ∧
    (discardHead t rest s).pending = s.pending := by
  simp [discardHead]

/-- A release changes what admissions change, the composer and the held-cells mark. -/
@[simp] theorem releaseHead_frame (t : Token) (rest : List Token) (s : State) :
    (releaseHead t rest s).resetLow = s.resetLow ∧ (releaseHead t rest s).span = s.span ∧
    (releaseHead t rest s).rate = s.rate ∧ (releaseHead t rest s).attention = s.attention ∧
    (releaseHead t rest s).latches = s.latches ∧ (releaseHead t rest s).busOut = s.busOut ∧
    (releaseHead t rest s).sram = s.sram ∧ (releaseHead t rest s).timebase = s.timebase ∧
    (releaseHead t rest s).directiveParser = s.directiveParser ∧
    (releaseHead t rest s).lastOutcome = s.lastOutcome ∧ (releaseHead t rest s).cues = s.cues ∧
    (releaseHead t rest s).service = s.service ∧ (releaseHead t rest s).image = s.image ∧
    (releaseHead t rest s).pending = s.pending := by
  simp [releaseHead]

/-- So does a release pass. -/
@[simp] theorem releaseUpTo_frame (fuel : Nat) (s : State) :
    (releaseUpTo fuel s).resetLow = s.resetLow ∧ (releaseUpTo fuel s).span = s.span ∧
    (releaseUpTo fuel s).rate = s.rate ∧ (releaseUpTo fuel s).attention = s.attention ∧
    (releaseUpTo fuel s).latches = s.latches ∧ (releaseUpTo fuel s).busOut = s.busOut ∧
    (releaseUpTo fuel s).sram = s.sram ∧ (releaseUpTo fuel s).timebase = s.timebase ∧
    (releaseUpTo fuel s).directiveParser = s.directiveParser ∧
    (releaseUpTo fuel s).lastOutcome = s.lastOutcome ∧ (releaseUpTo fuel s).cues = s.cues ∧
    (releaseUpTo fuel s).service = s.service ∧ (releaseUpTo fuel s).image = s.image ∧
    (releaseUpTo fuel s).pending = s.pending := by
  induction fuel generalizing s with
  | zero => simp [releaseUpTo]
  | succ n ih =>
    unfold releaseUpTo
    try dsimp only
    (repeat' split) <;> simp [ih]

/-- So does the release pass of a frame event. -/
@[simp] theorem releasePass_frame (s : State) :
    (releasePass s).resetLow = s.resetLow ∧ (releasePass s).span = s.span ∧
    (releasePass s).rate = s.rate ∧ (releasePass s).attention = s.attention ∧
    (releasePass s).latches = s.latches ∧ (releasePass s).busOut = s.busOut ∧
    (releasePass s).sram = s.sram ∧ (releasePass s).timebase = s.timebase ∧
    (releasePass s).directiveParser = s.directiveParser ∧
    (releasePass s).lastOutcome = s.lastOutcome ∧ (releasePass s).cues = s.cues ∧
    (releasePass s).service = s.service ∧ (releasePass s).image = s.image ∧
    (releasePass s).pending = s.pending := by
  unfold releasePass
  try dsimp only
  (repeat' split) <;> simp

/-- A shed changes the lanes and the counters. -/
@[simp] theorem shedHead_frame (x : Lane) (s : State) :
    (shedHead x s).resetLow = s.resetLow ∧ (shedHead x s).span = s.span ∧
    (shedHead x s).rate = s.rate ∧ (shedHead x s).attention = s.attention ∧
    (shedHead x s).latches = s.latches ∧ (shedHead x s).busOut = s.busOut ∧
    (shedHead x s).sram = s.sram ∧ (shedHead x s).timebase = s.timebase ∧
    (shedHead x s).directiveParser = s.directiveParser ∧ (shedHead x s).retiming = s.retiming ∧
    (shedHead x s).schedule = s.schedule ∧ (shedHead x s).floor = s.floor ∧
    (shedHead x s).composer = s.composer ∧ (shedHead x s).emission = s.emission ∧
    (shedHead x s).lastOutcome = s.lastOutcome ∧ (shedHead x s).cues = s.cues ∧
    (shedHead x s).service = s.service ∧ (shedHead x s).image = s.image ∧
    (shedHead x s).pending = s.pending := by
  unfold shedHead
  try dsimp only
  (repeat' split) <;> simp

/-- Creating a token changes what admissions change. -/
@[simp] theorem createToken_frame (x : Lane) (kind : TokenKind) (sentEnd attach : Bool) (text : List Byte) (s : State) :
    (createToken x kind sentEnd attach text s).resetLow = s.resetLow ∧
    (createToken x kind sentEnd attach text s).span = s.span ∧
    (createToken x kind sentEnd attach text s).rate = s.rate ∧
    (createToken x kind sentEnd attach text s).attention = s.attention ∧
    (createToken x kind sentEnd attach text s).latches = s.latches ∧
    (createToken x kind sentEnd attach text s).busOut = s.busOut ∧
    (createToken x kind sentEnd attach text s).sram = s.sram ∧
    (createToken x kind sentEnd attach text s).timebase = s.timebase ∧
    (createToken x kind sentEnd attach text s).directiveParser = s.directiveParser ∧
    (createToken x kind sentEnd attach text s).composer = s.composer ∧
    (createToken x kind sentEnd attach text s).emission = s.emission ∧
    (createToken x kind sentEnd attach text s).lastOutcome = s.lastOutcome ∧
    (createToken x kind sentEnd attach text s).cues = s.cues ∧
    (createToken x kind sentEnd attach text s).service = s.service ∧
    (createToken x kind sentEnd attach text s).image = s.image ∧
    (createToken x kind sentEnd attach text s).pending = s.pending := by
  unfold createToken
  try dsimp only
  (repeat' split) <;> simp

/-- A token record changes what admissions change, and attention. -/
@[simp] theorem tokenRecord_frame (x : Lane) (kind : TokenKind) (sentEnd attach : Bool) (text : List Byte) (s : State) :
    (tokenRecord x kind sentEnd attach text s).resetLow = s.resetLow ∧
    (tokenRecord x kind sentEnd attach text s).span = s.span ∧
    (tokenRecord x kind sentEnd attach text s).rate = s.rate ∧
    (tokenRecord x kind sentEnd attach text s).latches = s.latches ∧
    (tokenRecord x kind sentEnd attach text s).busOut = s.busOut ∧
    (tokenRecord x kind sentEnd attach text s).sram = s.sram ∧
    (tokenRecord x kind sentEnd attach text s).timebase = s.timebase ∧
    (tokenRecord x kind sentEnd attach text s).directiveParser = s.directiveParser ∧
    (tokenRecord x kind sentEnd attach text s).composer = s.composer ∧
    (tokenRecord x kind sentEnd attach text s).emission = s.emission ∧
    (tokenRecord x kind sentEnd attach text s).lastOutcome = s.lastOutcome ∧
    (tokenRecord x kind sentEnd attach text s).cues = s.cues ∧
    (tokenRecord x kind sentEnd attach text s).service = s.service ∧
    (tokenRecord x kind sentEnd attach text s).image = s.image ∧
    (tokenRecord x kind sentEnd attach text s).pending = s.pending := by
  unfold tokenRecord
  try dsimp only
  (repeat' split) <;> simp

/-- A late correction changes the counters alone. -/
@[simp] theorem lateCorrection_frame (s : State) :
    (lateCorrection s).resetLow = s.resetLow ∧ (lateCorrection s).span = s.span ∧
    (lateCorrection s).rate = s.rate ∧ (lateCorrection s).attention = s.attention ∧
    (lateCorrection s).latches = s.latches ∧ (lateCorrection s).busOut = s.busOut ∧
    (lateCorrection s).sram = s.sram ∧ (lateCorrection s).timebase = s.timebase ∧
    (lateCorrection s).laneA = s.laneA ∧ (lateCorrection s).laneB = s.laneB ∧
    (lateCorrection s).directiveParser = s.directiveParser ∧
    (lateCorrection s).retiming = s.retiming ∧ (lateCorrection s).schedule = s.schedule ∧
    (lateCorrection s).floor = s.floor ∧ (lateCorrection s).composer = s.composer ∧
    (lateCorrection s).emission = s.emission ∧ (lateCorrection s).lastOutcome = s.lastOutcome ∧
    (lateCorrection s).cues = s.cues ∧ (lateCorrection s).service = s.service ∧
    (lateCorrection s).image = s.image ∧ (lateCorrection s).pending = s.pending := by
  simp [lateCorrection]

/-- The pop of a composed token changes the composer, the held-cells mark or the counters. -/
@[simp] theorem popComposed_frame (id : TokenId) (s : State) :
    (popComposed id s).resetLow = s.resetLow ∧ (popComposed id s).span = s.span ∧
    (popComposed id s).rate = s.rate ∧ (popComposed id s).attention = s.attention ∧
    (popComposed id s).latches = s.latches ∧ (popComposed id s).busOut = s.busOut ∧
    (popComposed id s).sram = s.sram ∧ (popComposed id s).timebase = s.timebase ∧
    (popComposed id s).laneA = s.laneA ∧ (popComposed id s).laneB = s.laneB ∧
    (popComposed id s).directiveParser = s.directiveParser ∧
    (popComposed id s).retiming = s.retiming ∧ (popComposed id s).schedule = s.schedule ∧
    (popComposed id s).floor = s.floor ∧ (popComposed id s).lastOutcome = s.lastOutcome ∧
    (popComposed id s).cues = s.cues ∧ (popComposed id s).service = s.service ∧
    (popComposed id s).image = s.image ∧ (popComposed id s).pending = s.pending := by
  unfold popComposed
  try dsimp only
  (repeat' split) <;> simp

/-- A pop changes what admissions change, the composer and the held-cells mark. -/
@[simp] theorem popAction_frame (x : Lane) (en : StackEntry) (s : State) :
    (popAction x en s).resetLow = s.resetLow ∧ (popAction x en s).span = s.span ∧
    (popAction x en s).rate = s.rate ∧ (popAction x en s).attention = s.attention ∧
    (popAction x en s).latches = s.latches ∧ (popAction x en s).busOut = s.busOut ∧
    (popAction x en s).sram = s.sram ∧ (popAction x en s).timebase = s.timebase ∧
    (popAction x en s).directiveParser = s.directiveParser ∧
    (popAction x en s).lastOutcome = s.lastOutcome ∧ (popAction x en s).cues = s.cues ∧
    (popAction x en s).service = s.service ∧ (popAction x en s).image = s.image ∧
    (popAction x en s).pending = s.pending := by
  unfold popAction
  try dsimp only
  (repeat' split) <;> simp

/-- So does a correction. -/
@[simp] theorem correctLane_frame (x : Lane) (n : Nat) (s : State) :
    (correctLane x n s).resetLow = s.resetLow ∧ (correctLane x n s).span = s.span ∧
    (correctLane x n s).rate = s.rate ∧ (correctLane x n s).attention = s.attention ∧
    (correctLane x n s).latches = s.latches ∧ (correctLane x n s).busOut = s.busOut ∧
    (correctLane x n s).sram = s.sram ∧ (correctLane x n s).timebase = s.timebase ∧
    (correctLane x n s).directiveParser = s.directiveParser ∧
    (correctLane x n s).lastOutcome = s.lastOutcome ∧ (correctLane x n s).cues = s.cues ∧
    (correctLane x n s).service = s.service ∧ (correctLane x n s).image = s.image ∧
    (correctLane x n s).pending = s.pending := by
  induction n generalizing s with
  | zero => simp [correctLane]
  | succ n ih =>
    unfold correctLane
    try dsimp only
    (repeat' split) <;> simp [ih]

/-- Measuring lateness changes the counters and the maximum lateness. -/
@[simp] theorem measureLateness_frame (speech arrival : Frame) (s : State) :
    (measureLateness speech arrival s).resetLow = s.resetLow ∧
    (measureLateness speech arrival s).span = s.span ∧
    (measureLateness speech arrival s).rate = s.rate ∧
    (measureLateness speech arrival s).attention = s.attention ∧
    (measureLateness speech arrival s).latches = s.latches ∧
    (measureLateness speech arrival s).busOut = s.busOut ∧
    (measureLateness speech arrival s).sram = s.sram ∧
    (measureLateness speech arrival s).timebase = s.timebase ∧
    (measureLateness speech arrival s).laneA = s.laneA ∧
    (measureLateness speech arrival s).laneB = s.laneB ∧
    (measureLateness speech arrival s).directiveParser = s.directiveParser ∧
    (measureLateness speech arrival s).schedule = s.schedule ∧
    (measureLateness speech arrival s).floor = s.floor ∧
    (measureLateness speech arrival s).composer = s.composer ∧
    (measureLateness speech arrival s).emission = s.emission ∧
    (measureLateness speech arrival s).lastOutcome = s.lastOutcome ∧
    (measureLateness speech arrival s).cues = s.cues ∧
    (measureLateness speech arrival s).service = s.service ∧
    (measureLateness speech arrival s).image = s.image ∧
    (measureLateness speech arrival s).pending = s.pending := by
  simp [measureLateness]

/-- Completing a group changes the lanes, the counters and the maximum lateness. -/
@[simp] theorem completeGroup_frame (g : GroupRecord) (s : State) :
    (completeGroup g s).resetLow = s.resetLow ∧ (completeGroup g s).span = s.span ∧
    (completeGroup g s).rate = s.rate ∧ (completeGroup g s).attention = s.attention ∧
    (completeGroup g s).latches = s.latches ∧ (completeGroup g s).busOut = s.busOut ∧
    (completeGroup g s).sram = s.sram ∧ (completeGroup g s).timebase = s.timebase ∧
    (completeGroup g s).directiveParser = s.directiveParser ∧
    (completeGroup g s).schedule = s.schedule ∧ (completeGroup g s).floor = s.floor ∧
    (completeGroup g s).composer = s.composer ∧ (completeGroup g s).emission = s.emission ∧
    (completeGroup g s).lastOutcome = s.lastOutcome ∧ (completeGroup g s).cues = s.cues ∧
    (completeGroup g s).service = s.service ∧ (completeGroup g s).image = s.image ∧
    (completeGroup g s).pending = s.pending := by
  unfold completeGroup
  try dsimp only
  (repeat' split) <;> simp

/-- Taking a group cell changes these and the composer. -/
@[simp] theorem takeGroupCell_frame (columns : Nat) (s : State) :
    (takeGroupCell columns s).resetLow = s.resetLow ∧ (takeGroupCell columns s).span = s.span ∧
    (takeGroupCell columns s).rate = s.rate ∧ (takeGroupCell columns s).attention = s.attention ∧
    (takeGroupCell columns s).latches = s.latches ∧ (takeGroupCell columns s).busOut = s.busOut ∧
    (takeGroupCell columns s).sram = s.sram ∧ (takeGroupCell columns s).timebase = s.timebase ∧
    (takeGroupCell columns s).directiveParser = s.directiveParser ∧
    (takeGroupCell columns s).schedule = s.schedule ∧ (takeGroupCell columns s).floor = s.floor ∧
    (takeGroupCell columns s).emission = s.emission ∧
    (takeGroupCell columns s).lastOutcome = s.lastOutcome ∧
    (takeGroupCell columns s).cues = s.cues ∧ (takeGroupCell columns s).service = s.service ∧
    (takeGroupCell columns s).image = s.image ∧ (takeGroupCell columns s).pending = s.pending := by
  unfold takeGroupCell
  try dsimp only
  (repeat' split) <;> simp

/-- So does taking cells. -/
@[simp] theorem takeCells_frame (n : Nat) (s : State) :
    (takeCells n s).resetLow = s.resetLow ∧ (takeCells n s).span = s.span ∧
    (takeCells n s).rate = s.rate ∧ (takeCells n s).attention = s.attention ∧
    (takeCells n s).latches = s.latches ∧ (takeCells n s).busOut = s.busOut ∧
    (takeCells n s).sram = s.sram ∧ (takeCells n s).timebase = s.timebase ∧
    (takeCells n s).directiveParser = s.directiveParser ∧ (takeCells n s).schedule = s.schedule ∧
    (takeCells n s).floor = s.floor ∧ (takeCells n s).emission = s.emission ∧
    (takeCells n s).lastOutcome = s.lastOutcome ∧ (takeCells n s).cues = s.cues ∧
    (takeCells n s).service = s.service ∧ (takeCells n s).image = s.image ∧
    (takeCells n s).pending = s.pending := by
  induction n generalizing s with
  | zero => simp [takeCells]
  | succ n ih =>
    unfold takeCells
    try dsimp only
    (repeat' split) <;> simp [ih]

/-- A take changes these and the Emission Unit. -/
@[simp] theorem takeBlock_frame (s : State) :
    (takeBlock s).resetLow = s.resetLow ∧ (takeBlock s).span = s.span ∧
    (takeBlock s).rate = s.rate ∧ (takeBlock s).attention = s.attention ∧
    (takeBlock s).latches = s.latches ∧ (takeBlock s).busOut = s.busOut ∧
    (takeBlock s).sram = s.sram ∧ (takeBlock s).timebase = s.timebase ∧
    (takeBlock s).directiveParser = s.directiveParser ∧ (takeBlock s).schedule = s.schedule ∧
    (takeBlock s).floor = s.floor ∧ (takeBlock s).lastOutcome = s.lastOutcome ∧
    (takeBlock s).cues = s.cues ∧ (takeBlock s).service = s.service ∧
    (takeBlock s).image = s.image ∧ (takeBlock s).pending = s.pending := by
  simp [takeBlock]

/-- So does a read of the emission window. -/
@[simp] theorem emissionRead_frame (requester : Requester) (i : BitVec 3) (s : State) :
    (emissionRead requester i s).resetLow = s.resetLow ∧
    (emissionRead requester i s).span = s.span ∧ (emissionRead requester i s).rate = s.rate ∧
    (emissionRead requester i s).attention = s.attention ∧
    (emissionRead requester i s).latches = s.latches ∧
    (emissionRead requester i s).busOut = s.busOut ∧ (emissionRead requester i s).sram = s.sram ∧
    (emissionRead requester i s).timebase = s.timebase ∧
    (emissionRead requester i s).directiveParser = s.directiveParser ∧
    (emissionRead requester i s).schedule = s.schedule ∧
    (emissionRead requester i s).floor = s.floor ∧
    (emissionRead requester i s).lastOutcome = s.lastOutcome ∧
    (emissionRead requester i s).cues = s.cues ∧ (emissionRead requester i s).service = s.service ∧
    (emissionRead requester i s).image = s.image ∧ (emissionRead requester i s).pending = s.pending := by
  unfold emissionRead
  try dsimp only
  (repeat' split) <;> simp

/-- Judging a frame changes the counters and CARRY. -/
@[simp] theorem judgeFrame_frame (ended : Frame) (s : State) :
    (judgeFrame ended s).resetLow = s.resetLow ∧ (judgeFrame ended s).span = s.span ∧
    (judgeFrame ended s).rate = s.rate ∧ (judgeFrame ended s).attention = s.attention ∧
    (judgeFrame ended s).latches = s.latches ∧ (judgeFrame ended s).busOut = s.busOut ∧
    (judgeFrame ended s).sram = s.sram ∧ (judgeFrame ended s).timebase = s.timebase ∧
    (judgeFrame ended s).laneA = s.laneA ∧ (judgeFrame ended s).laneB = s.laneB ∧
    (judgeFrame ended s).directiveParser = s.directiveParser ∧
    (judgeFrame ended s).retiming = s.retiming ∧ (judgeFrame ended s).schedule = s.schedule ∧
    (judgeFrame ended s).floor = s.floor ∧ (judgeFrame ended s).composer = s.composer ∧
    (judgeFrame ended s).lastOutcome = s.lastOutcome ∧ (judgeFrame ended s).cues = s.cues ∧
    (judgeFrame ended s).service = s.service ∧ (judgeFrame ended s).image = s.image ∧
    (judgeFrame ended s).pending = s.pending := by
  simp [judgeFrame]

/-- Classifying a frame changes the timebase, the counters and attention. -/
@[simp] theorem classify_frame (new day : Nat) (s : State) :
    (classify new day s).resetLow = s.resetLow ∧ (classify new day s).span = s.span ∧
    (classify new day s).rate = s.rate ∧ (classify new day s).latches = s.latches ∧
    (classify new day s).busOut = s.busOut ∧ (classify new day s).sram = s.sram ∧
    (classify new day s).laneA = s.laneA ∧ (classify new day s).laneB = s.laneB ∧
    (classify new day s).directiveParser = s.directiveParser ∧
    (classify new day s).retiming = s.retiming ∧ (classify new day s).schedule = s.schedule ∧
    (classify new day s).floor = s.floor ∧ (classify new day s).composer = s.composer ∧
    (classify new day s).emission = s.emission ∧ (classify new day s).lastOutcome = s.lastOutcome ∧
    (classify new day s).cues = s.cues ∧ (classify new day s).service = s.service ∧
    (classify new day s).image = s.image ∧ (classify new day s).pending = s.pending := by
  unfold classify
  try dsimp only
  (repeat' split) <;> simp

/-- So does opening a frame's timecode. -/
@[simp] theorem openTimecode_frame (s : State) :
    (openTimecode s).resetLow = s.resetLow ∧ (openTimecode s).span = s.span ∧
    (openTimecode s).rate = s.rate ∧ (openTimecode s).latches = s.latches ∧
    (openTimecode s).busOut = s.busOut ∧ (openTimecode s).sram = s.sram ∧
    (openTimecode s).laneA = s.laneA ∧ (openTimecode s).laneB = s.laneB ∧
    (openTimecode s).directiveParser = s.directiveParser ∧ (openTimecode s).retiming = s.retiming ∧
    (openTimecode s).schedule = s.schedule ∧ (openTimecode s).floor = s.floor ∧
    (openTimecode s).composer = s.composer ∧ (openTimecode s).emission = s.emission ∧
    (openTimecode s).lastOutcome = s.lastOutcome ∧ (openTimecode s).cues = s.cues ∧
    (openTimecode s).service = s.service ∧ (openTimecode s).image = s.image ∧
    (openTimecode s).pending = s.pending := by
  unfold openTimecode
  try dsimp only
  (repeat' split) <;> simp

/-- Retiring stale cues changes the cue table and the counters. -/
@[simp] theorem retireStale_frame (s : State) :
    (retireStale s).resetLow = s.resetLow ∧ (retireStale s).span = s.span ∧
    (retireStale s).rate = s.rate ∧ (retireStale s).attention = s.attention ∧
    (retireStale s).latches = s.latches ∧ (retireStale s).busOut = s.busOut ∧
    (retireStale s).sram = s.sram ∧ (retireStale s).timebase = s.timebase ∧
    (retireStale s).laneA = s.laneA ∧ (retireStale s).laneB = s.laneB ∧
    (retireStale s).directiveParser = s.directiveParser ∧ (retireStale s).retiming = s.retiming ∧
    (retireStale s).schedule = s.schedule ∧ (retireStale s).floor = s.floor ∧
    (retireStale s).composer = s.composer ∧ (retireStale s).emission = s.emission ∧
    (retireStale s).lastOutcome = s.lastOutcome ∧ (retireStale s).service = s.service ∧
    (retireStale s).image = s.image ∧ (retireStale s).pending = s.pending := by
  unfold retireStale
  try dsimp only
  (repeat' split) <;> simp

/-- A stall check changes the parsers, the counters and attention. -/
@[simp] theorem stallCheck_frame (r : Ring) (s : State) :
    (stallCheck r s).resetLow = s.resetLow ∧ (stallCheck r s).span = s.span ∧
    (stallCheck r s).rate = s.rate ∧ (stallCheck r s).latches = s.latches ∧
    (stallCheck r s).busOut = s.busOut ∧ (stallCheck r s).sram = s.sram ∧
    (stallCheck r s).timebase = s.timebase ∧ (stallCheck r s).retiming = s.retiming ∧
    (stallCheck r s).schedule = s.schedule ∧ (stallCheck r s).floor = s.floor ∧
    (stallCheck r s).composer = s.composer ∧ (stallCheck r s).emission = s.emission ∧
    (stallCheck r s).lastOutcome = s.lastOutcome ∧ (stallCheck r s).cues = s.cues ∧
    (stallCheck r s).service = s.service ∧ (stallCheck r s).image = s.image ∧
    (stallCheck r s).pending = s.pending := by
  unfold stallCheck
  try dsimp only
  (repeat' split) <;> simp

/-- So do the three stall checks. -/
@[simp] theorem stallChecks_frame (s : State) :
    (stallChecks s).resetLow = s.resetLow ∧ (stallChecks s).span = s.span ∧
    (stallChecks s).rate = s.rate ∧ (stallChecks s).latches = s.latches ∧
    (stallChecks s).busOut = s.busOut ∧ (stallChecks s).sram = s.sram ∧
    (stallChecks s).timebase = s.timebase ∧ (stallChecks s).retiming = s.retiming ∧
    (stallChecks s).schedule = s.schedule ∧ (stallChecks s).floor = s.floor ∧
    (stallChecks s).composer = s.composer ∧ (stallChecks s).emission = s.emission ∧
    (stallChecks s).lastOutcome = s.lastOutcome ∧ (stallChecks s).cues = s.cues ∧
    (stallChecks s).service = s.service ∧ (stallChecks s).image = s.image ∧
    (stallChecks s).pending = s.pending := by
  simp [stallChecks]

/-- The advance of E changes the timebase and the held-cells marks. -/
@[simp] theorem advanceE_frame (s : State) :
    (advanceE s).resetLow = s.resetLow ∧ (advanceE s).span = s.span ∧ (advanceE s).rate = s.rate ∧
    (advanceE s).attention = s.attention ∧ (advanceE s).latches = s.latches ∧
    (advanceE s).busOut = s.busOut ∧ (advanceE s).sram = s.sram ∧ (advanceE s).laneA = s.laneA ∧
    (advanceE s).laneB = s.laneB ∧ (advanceE s).directiveParser = s.directiveParser ∧
    (advanceE s).retiming = s.retiming ∧ (advanceE s).schedule = s.schedule ∧
    (advanceE s).floor = s.floor ∧ (advanceE s).composer = s.composer ∧
    (advanceE s).lastOutcome = s.lastOutcome ∧ (advanceE s).cues = s.cues ∧
    (advanceE s).service = s.service ∧ (advanceE s).image = s.image ∧
    (advanceE s).counters = s.counters ∧ (advanceE s).pending = s.pending := by
  simp [advanceE]

/-- Opening a frame changes the timebase, the Emission Unit, the cues, the parsers, the counters and attention. -/
@[simp] theorem openFrame_frame (closes : Bool) (s : State) :
    (openFrame closes s).resetLow = s.resetLow ∧ (openFrame closes s).span = s.span ∧
    (openFrame closes s).rate = s.rate ∧ (openFrame closes s).latches = s.latches ∧
    (openFrame closes s).busOut = s.busOut ∧ (openFrame closes s).sram = s.sram ∧
    (openFrame closes s).retiming = s.retiming ∧ (openFrame closes s).schedule = s.schedule ∧
    (openFrame closes s).floor = s.floor ∧ (openFrame closes s).composer = s.composer ∧
    (openFrame closes s).lastOutcome = s.lastOutcome ∧ (openFrame closes s).service = s.service ∧
    (openFrame closes s).image = s.image ∧ (openFrame closes s).pending = s.pending := by
  unfold openFrame
  try dsimp only
  (repeat' split) <;> simp

/-- A slew tick changes the ticker and the effective values. -/
@[simp] theorem slewTick_frame (s : State) :
    (slewTick s).resetLow = s.resetLow ∧ (slewTick s).span = s.span ∧ (slewTick s).rate = s.rate ∧
    (slewTick s).attention = s.attention ∧ (slewTick s).latches = s.latches ∧
    (slewTick s).busOut = s.busOut ∧ (slewTick s).sram = s.sram ∧
    (slewTick s).directiveParser = s.directiveParser ∧ (slewTick s).schedule = s.schedule ∧
    (slewTick s).floor = s.floor ∧ (slewTick s).composer = s.composer ∧
    (slewTick s).emission = s.emission ∧ (slewTick s).lastOutcome = s.lastOutcome ∧
    (slewTick s).cues = s.cues ∧ (slewTick s).service = s.service ∧ (slewTick s).image = s.image ∧
    (slewTick s).counters = s.counters ∧ (slewTick s).pending = s.pending := by
  simp [slewTick]

/-- So does the ticker's step. -/
@[simp] theorem slewStep_frame (s : State) :
    (slewStep s).resetLow = s.resetLow ∧ (slewStep s).span = s.span ∧ (slewStep s).rate = s.rate ∧
    (slewStep s).attention = s.attention ∧ (slewStep s).latches = s.latches ∧
    (slewStep s).busOut = s.busOut ∧ (slewStep s).sram = s.sram ∧
    (slewStep s).directiveParser = s.directiveParser ∧ (slewStep s).schedule = s.schedule ∧
    (slewStep s).floor = s.floor ∧ (slewStep s).composer = s.composer ∧
    (slewStep s).emission = s.emission ∧ (slewStep s).lastOutcome = s.lastOutcome ∧
    (slewStep s).cues = s.cues ∧ (slewStep s).service = s.service ∧ (slewStep s).image = s.image ∧
    (slewStep s).counters = s.counters ∧ (slewStep s).pending = s.pending := by
  unfold slewStep
  try dsimp only
  (repeat' split) <;> simp

/-- DELAY changes the delay target alone. -/
@[simp] theorem setDelay_frame (d : Word) (s : State) :
    ((setDelay d s).1).resetLow = s.resetLow ∧ ((setDelay d s).1).span = s.span ∧
    ((setDelay d s).1).rate = s.rate ∧ ((setDelay d s).1).attention = s.attention ∧
    ((setDelay d s).1).latches = s.latches ∧ ((setDelay d s).1).busOut = s.busOut ∧
    ((setDelay d s).1).sram = s.sram ∧ ((setDelay d s).1).timebase = s.timebase ∧
    ((setDelay d s).1).laneA = s.laneA ∧ ((setDelay d s).1).laneB = s.laneB ∧
    ((setDelay d s).1).directiveParser = s.directiveParser ∧
    ((setDelay d s).1).schedule = s.schedule ∧ ((setDelay d s).1).floor = s.floor ∧
    ((setDelay d s).1).composer = s.composer ∧ ((setDelay d s).1).emission = s.emission ∧
    ((setDelay d s).1).lastOutcome = s.lastOutcome ∧ ((setDelay d s).1).cues = s.cues ∧
    ((setDelay d s).1).service = s.service ∧ ((setDelay d s).1).image = s.image ∧
    ((setDelay d s).1).counters = s.counters ∧ ((setDelay d s).1).pending = s.pending := by
  simp [setDelay]

/-- LAG changes the lanes alone. -/
@[simp] theorem setLag_frame (lane l : Word) (s : State) :
    ((setLag lane l s).1).resetLow = s.resetLow ∧ ((setLag lane l s).1).span = s.span ∧
    ((setLag lane l s).1).rate = s.rate ∧ ((setLag lane l s).1).attention = s.attention ∧
    ((setLag lane l s).1).latches = s.latches ∧ ((setLag lane l s).1).busOut = s.busOut ∧
    ((setLag lane l s).1).sram = s.sram ∧ ((setLag lane l s).1).timebase = s.timebase ∧
    ((setLag lane l s).1).directiveParser = s.directiveParser ∧
    ((setLag lane l s).1).retiming = s.retiming ∧ ((setLag lane l s).1).schedule = s.schedule ∧
    ((setLag lane l s).1).floor = s.floor ∧ ((setLag lane l s).1).composer = s.composer ∧
    ((setLag lane l s).1).emission = s.emission ∧
    ((setLag lane l s).1).lastOutcome = s.lastOutcome ∧ ((setLag lane l s).1).cues = s.cues ∧
    ((setLag lane l s).1).service = s.service ∧ ((setLag lane l s).1).image = s.image ∧
    ((setLag lane l s).1).counters = s.counters ∧ ((setLag lane l s).1).pending = s.pending := by
  unfold setLag
  try dsimp only
  (repeat' split) <;> simp

/-- LEAD changes the lead alone. -/
@[simp] theorem setLead_frame (n : Word) (s : State) :
    ((setLead n s).1).resetLow = s.resetLow ∧ ((setLead n s).1).span = s.span ∧
    ((setLead n s).1).rate = s.rate ∧ ((setLead n s).1).attention = s.attention ∧
    ((setLead n s).1).latches = s.latches ∧ ((setLead n s).1).busOut = s.busOut ∧
    ((setLead n s).1).sram = s.sram ∧ ((setLead n s).1).timebase = s.timebase ∧
    ((setLead n s).1).laneA = s.laneA ∧ ((setLead n s).1).laneB = s.laneB ∧
    ((setLead n s).1).directiveParser = s.directiveParser ∧
    ((setLead n s).1).schedule = s.schedule ∧ ((setLead n s).1).floor = s.floor ∧
    ((setLead n s).1).composer = s.composer ∧ ((setLead n s).1).emission = s.emission ∧
    ((setLead n s).1).lastOutcome = s.lastOutcome ∧ ((setLead n s).1).cues = s.cues ∧
    ((setLead n s).1).service = s.service ∧ ((setLead n s).1).image = s.image ∧
    ((setLead n s).1).counters = s.counters ∧ ((setLead n s).1).pending = s.pending := by
  simp [setLead]

/-- STALE changes the horizon alone. -/
@[simp] theorem setHorizon_frame (h : Word) (s : State) :
    ((setHorizon h s).1).resetLow = s.resetLow ∧ ((setHorizon h s).1).span = s.span ∧
    ((setHorizon h s).1).rate = s.rate ∧ ((setHorizon h s).1).attention = s.attention ∧
    ((setHorizon h s).1).latches = s.latches ∧ ((setHorizon h s).1).busOut = s.busOut ∧
    ((setHorizon h s).1).sram = s.sram ∧ ((setHorizon h s).1).timebase = s.timebase ∧
    ((setHorizon h s).1).laneA = s.laneA ∧ ((setHorizon h s).1).laneB = s.laneB ∧
    ((setHorizon h s).1).directiveParser = s.directiveParser ∧
    ((setHorizon h s).1).schedule = s.schedule ∧ ((setHorizon h s).1).floor = s.floor ∧
    ((setHorizon h s).1).composer = s.composer ∧ ((setHorizon h s).1).emission = s.emission ∧
    ((setHorizon h s).1).lastOutcome = s.lastOutcome ∧ ((setHorizon h s).1).cues = s.cues ∧
    ((setHorizon h s).1).service = s.service ∧ ((setHorizon h s).1).image = s.image ∧
    ((setHorizon h s).1).counters = s.counters ∧ ((setHorizon h s).1).pending = s.pending := by
  unfold setHorizon
  try dsimp only
  (repeat' split) <;> simp

/-- A slew mode is set with the ticker. -/
@[simp] theorem setSlewMode_frame (m : SlewMode) (s : State) :
    (setSlewMode m s).resetLow = s.resetLow ∧ (setSlewMode m s).span = s.span ∧
    (setSlewMode m s).rate = s.rate ∧ (setSlewMode m s).attention = s.attention ∧
    (setSlewMode m s).latches = s.latches ∧ (setSlewMode m s).busOut = s.busOut ∧
    (setSlewMode m s).sram = s.sram ∧ (setSlewMode m s).laneA = s.laneA ∧
    (setSlewMode m s).laneB = s.laneB ∧ (setSlewMode m s).directiveParser = s.directiveParser ∧
    (setSlewMode m s).schedule = s.schedule ∧ (setSlewMode m s).floor = s.floor ∧
    (setSlewMode m s).composer = s.composer ∧ (setSlewMode m s).emission = s.emission ∧
    (setSlewMode m s).lastOutcome = s.lastOutcome ∧ (setSlewMode m s).cues = s.cues ∧
    (setSlewMode m s).service = s.service ∧ (setSlewMode m s).image = s.image ∧
    (setSlewMode m s).counters = s.counters ∧ (setSlewMode m s).pending = s.pending := by
  simp [setSlewMode]

/-- SLEW changes the slew mode and the ticker. -/
@[simp] theorem setSlew_frame (mode : Word) (s : State) :
    ((setSlew mode s).1).resetLow = s.resetLow ∧ ((setSlew mode s).1).span = s.span ∧
    ((setSlew mode s).1).rate = s.rate ∧ ((setSlew mode s).1).attention = s.attention ∧
    ((setSlew mode s).1).latches = s.latches ∧ ((setSlew mode s).1).busOut = s.busOut ∧
    ((setSlew mode s).1).sram = s.sram ∧ ((setSlew mode s).1).laneA = s.laneA ∧
    ((setSlew mode s).1).laneB = s.laneB ∧
    ((setSlew mode s).1).directiveParser = s.directiveParser ∧
    ((setSlew mode s).1).schedule = s.schedule ∧ ((setSlew mode s).1).floor = s.floor ∧
    ((setSlew mode s).1).composer = s.composer ∧ ((setSlew mode s).1).emission = s.emission ∧
    ((setSlew mode s).1).lastOutcome = s.lastOutcome ∧ ((setSlew mode s).1).cues = s.cues ∧
    ((setSlew mode s).1).service = s.service ∧ ((setSlew mode s).1).image = s.image ∧
    ((setSlew mode s).1).counters = s.counters ∧ ((setSlew mode s).1).pending = s.pending := by
  unfold setSlew
  try dsimp only
  (repeat' split) <;> simp

/-- HOLD changes the service state alone. -/
@[simp] theorem holdService_frame (s : State) :
    ((holdService s).1).resetLow = s.resetLow ∧ ((holdService s).1).span = s.span ∧
    ((holdService s).1).rate = s.rate ∧ ((holdService s).1).attention = s.attention ∧
    ((holdService s).1).latches = s.latches ∧ ((holdService s).1).busOut = s.busOut ∧
    ((holdService s).1).sram = s.sram ∧ ((holdService s).1).timebase = s.timebase ∧
    ((holdService s).1).laneA = s.laneA ∧ ((holdService s).1).laneB = s.laneB ∧
    ((holdService s).1).directiveParser = s.directiveParser ∧
    ((holdService s).1).retiming = s.retiming ∧ ((holdService s).1).schedule = s.schedule ∧
    ((holdService s).1).floor = s.floor ∧ ((holdService s).1).composer = s.composer ∧
    ((holdService s).1).emission = s.emission ∧ ((holdService s).1).lastOutcome = s.lastOutcome ∧
    ((holdService s).1).cues = s.cues ∧ ((holdService s).1).image = s.image ∧
    ((holdService s).1).counters = s.counters ∧ ((holdService s).1).pending = s.pending := by
  simp [holdService]

/-- RESUME changes the service state and the image buffer. -/
@[simp] theorem resumeService_frame (s : State) :
    ((resumeService s).1).resetLow = s.resetLow ∧ ((resumeService s).1).span = s.span ∧
    ((resumeService s).1).rate = s.rate ∧ ((resumeService s).1).attention = s.attention ∧
    ((resumeService s).1).latches = s.latches ∧ ((resumeService s).1).busOut = s.busOut ∧
    ((resumeService s).1).sram = s.sram ∧ ((resumeService s).1).timebase = s.timebase ∧
    ((resumeService s).1).laneA = s.laneA ∧ ((resumeService s).1).laneB = s.laneB ∧
    ((resumeService s).1).directiveParser = s.directiveParser ∧
    ((resumeService s).1).retiming = s.retiming ∧ ((resumeService s).1).schedule = s.schedule ∧
    ((resumeService s).1).floor = s.floor ∧ ((resumeService s).1).composer = s.composer ∧
    ((resumeService s).1).emission = s.emission ∧
    ((resumeService s).1).lastOutcome = s.lastOutcome ∧ ((resumeService s).1).cues = s.cues ∧
    ((resumeService s).1).counters = s.counters ∧ ((resumeService s).1).pending = s.pending := by
  unfold resumeService
  try dsimp only
  (repeat' split) <;> simp

/-- SNAPSHOT changes the image buffer alone. -/
@[simp] theorem takeSnapshot_frame (s : State) :
    ((takeSnapshot s).1).resetLow = s.resetLow ∧ ((takeSnapshot s).1).span = s.span ∧
    ((takeSnapshot s).1).rate = s.rate ∧ ((takeSnapshot s).1).attention = s.attention ∧
    ((takeSnapshot s).1).latches = s.latches ∧ ((takeSnapshot s).1).busOut = s.busOut ∧
    ((takeSnapshot s).1).sram = s.sram ∧ ((takeSnapshot s).1).timebase = s.timebase ∧
    ((takeSnapshot s).1).laneA = s.laneA ∧ ((takeSnapshot s).1).laneB = s.laneB ∧
    ((takeSnapshot s).1).directiveParser = s.directiveParser ∧
    ((takeSnapshot s).1).retiming = s.retiming ∧ ((takeSnapshot s).1).schedule = s.schedule ∧
    ((takeSnapshot s).1).floor = s.floor ∧ ((takeSnapshot s).1).composer = s.composer ∧
    ((takeSnapshot s).1).emission = s.emission ∧ ((takeSnapshot s).1).lastOutcome = s.lastOutcome ∧
    ((takeSnapshot s).1).cues = s.cues ∧ ((takeSnapshot s).1).service = s.service ∧
    ((takeSnapshot s).1).counters = s.counters ∧ ((takeSnapshot s).1).pending = s.pending := by
  unfold takeSnapshot
  try dsimp only
  (repeat' split) <;> simp

/-- RESTORE_OPEN changes the image buffer alone. -/
@[simp] theorem openRestore_frame (s : State) :
    ((openRestore s).1).resetLow = s.resetLow ∧ ((openRestore s).1).span = s.span ∧
    ((openRestore s).1).rate = s.rate ∧ ((openRestore s).1).attention = s.attention ∧
    ((openRestore s).1).latches = s.latches ∧ ((openRestore s).1).busOut = s.busOut ∧
    ((openRestore s).1).sram = s.sram ∧ ((openRestore s).1).timebase = s.timebase ∧
    ((openRestore s).1).laneA = s.laneA ∧ ((openRestore s).1).laneB = s.laneB ∧
    ((openRestore s).1).directiveParser = s.directiveParser ∧
    ((openRestore s).1).retiming = s.retiming ∧ ((openRestore s).1).schedule = s.schedule ∧
    ((openRestore s).1).floor = s.floor ∧ ((openRestore s).1).composer = s.composer ∧
    ((openRestore s).1).emission = s.emission ∧ ((openRestore s).1).lastOutcome = s.lastOutcome ∧
    ((openRestore s).1).cues = s.cues ∧ ((openRestore s).1).service = s.service ∧
    ((openRestore s).1).counters = s.counters ∧ ((openRestore s).1).pending = s.pending := by
  unfold openRestore
  try dsimp only
  (repeat' split) <;> simp

/-- RESTORE_ABANDON changes the image buffer alone. -/
@[simp] theorem abandonRestore_frame (s : State) :
    ((abandonRestore s).1).resetLow = s.resetLow ∧ ((abandonRestore s).1).span = s.span ∧
    ((abandonRestore s).1).rate = s.rate ∧ ((abandonRestore s).1).attention = s.attention ∧
    ((abandonRestore s).1).latches = s.latches ∧ ((abandonRestore s).1).busOut = s.busOut ∧
    ((abandonRestore s).1).sram = s.sram ∧ ((abandonRestore s).1).timebase = s.timebase ∧
    ((abandonRestore s).1).laneA = s.laneA ∧ ((abandonRestore s).1).laneB = s.laneB ∧
    ((abandonRestore s).1).directiveParser = s.directiveParser ∧
    ((abandonRestore s).1).retiming = s.retiming ∧ ((abandonRestore s).1).schedule = s.schedule ∧
    ((abandonRestore s).1).floor = s.floor ∧ ((abandonRestore s).1).composer = s.composer ∧
    ((abandonRestore s).1).emission = s.emission ∧
    ((abandonRestore s).1).lastOutcome = s.lastOutcome ∧ ((abandonRestore s).1).cues = s.cues ∧
    ((abandonRestore s).1).service = s.service ∧ ((abandonRestore s).1).counters = s.counters ∧
    ((abandonRestore s).1).pending = s.pending := by
  unfold abandonRestore
  try dsimp only
  (repeat' split) <;> simp

/-- Arming changes the cue table alone. -/
@[simp] theorem armCue_frame (tag : Byte) (label : Label) (action : CueAction) (s : State) :
    ((armCue tag label action s).1).resetLow = s.resetLow ∧
    ((armCue tag label action s).1).span = s.span ∧ ((armCue tag label action s).1).rate = s.rate ∧
    ((armCue tag label action s).1).attention = s.attention ∧
    ((armCue tag label action s).1).latches = s.latches ∧
    ((armCue tag label action s).1).busOut = s.busOut ∧
    ((armCue tag label action s).1).sram = s.sram ∧
    ((armCue tag label action s).1).timebase = s.timebase ∧
    ((armCue tag label action s).1).laneA = s.laneA ∧
    ((armCue tag label action s).1).laneB = s.laneB ∧
    ((armCue tag label action s).1).directiveParser = s.directiveParser ∧
    ((armCue tag label action s).1).retiming = s.retiming ∧
    ((armCue tag label action s).1).schedule = s.schedule ∧
    ((armCue tag label action s).1).floor = s.floor ∧
    ((armCue tag label action s).1).composer = s.composer ∧
    ((armCue tag label action s).1).emission = s.emission ∧
    ((armCue tag label action s).1).lastOutcome = s.lastOutcome ∧
    ((armCue tag label action s).1).service = s.service ∧
    ((armCue tag label action s).1).image = s.image ∧
    ((armCue tag label action s).1).counters = s.counters ∧
    ((armCue tag label action s).1).pending = s.pending := by
  unfold armCue
  try dsimp only
  (repeat' split) <;> simp

/-- CUE changes the cue table alone. -/
@[simp] theorem cueDirective_frame (tag : Byte) (params : List Word) (s : State) :
    ((cueDirective tag params s).1).resetLow = s.resetLow ∧
    ((cueDirective tag params s).1).span = s.span ∧ ((cueDirective tag params s).1).rate = s.rate ∧
    ((cueDirective tag params s).1).attention = s.attention ∧
    ((cueDirective tag params s).1).latches = s.latches ∧
    ((cueDirective tag params s).1).busOut = s.busOut ∧
    ((cueDirective tag params s).1).sram = s.sram ∧
    ((cueDirective tag params s).1).timebase = s.timebase ∧
    ((cueDirective tag params s).1).laneA = s.laneA ∧
    ((cueDirective tag params s).1).laneB = s.laneB ∧
    ((cueDirective tag params s).1).directiveParser = s.directiveParser ∧
    ((cueDirective tag params s).1).retiming = s.retiming ∧
    ((cueDirective tag params s).1).schedule = s.schedule ∧
    ((cueDirective tag params s).1).floor = s.floor ∧
    ((cueDirective tag params s).1).composer = s.composer ∧
    ((cueDirective tag params s).1).emission = s.emission ∧
    ((cueDirective tag params s).1).lastOutcome = s.lastOutcome ∧
    ((cueDirective tag params s).1).service = s.service ∧
    ((cueDirective tag params s).1).image = s.image ∧
    ((cueDirective tag params s).1).counters = s.counters ∧
    ((cueDirective tag params s).1).pending = s.pending := by
  unfold cueDirective
  try dsimp only
  (repeat' split) <;> simp

/-- UNCUE changes the cue table alone. -/
@[simp] theorem uncue_frame (tag : Word) (s : State) :
    ((uncue tag s).1).resetLow = s.resetLow ∧ ((uncue tag s).1).span = s.span ∧
    ((uncue tag s).1).rate = s.rate ∧ ((uncue tag s).1).attention = s.attention ∧
    ((uncue tag s).1).latches = s.latches ∧ ((uncue tag s).1).busOut = s.busOut ∧
    ((uncue tag s).1).sram = s.sram ∧ ((uncue tag s).1).timebase = s.timebase ∧
    ((uncue tag s).1).laneA = s.laneA ∧ ((uncue tag s).1).laneB = s.laneB ∧
    ((uncue tag s).1).directiveParser = s.directiveParser ∧
    ((uncue tag s).1).retiming = s.retiming ∧ ((uncue tag s).1).schedule = s.schedule ∧
    ((uncue tag s).1).floor = s.floor ∧ ((uncue tag s).1).composer = s.composer ∧
    ((uncue tag s).1).emission = s.emission ∧ ((uncue tag s).1).lastOutcome = s.lastOutcome ∧
    ((uncue tag s).1).service = s.service ∧ ((uncue tag s).1).image = s.image ∧
    ((uncue tag s).1).counters = s.counters ∧ ((uncue tag s).1).pending = s.pending := by
  unfold uncue
  try dsimp only
  (repeat' split) <;> simp

/-- A cue's action changes what its directive changes. -/
@[simp] theorem actionOwner_frame (a : CueAction) (s : State) :
    ((actionOwner a s).1).resetLow = s.resetLow ∧ ((actionOwner a s).1).span = s.span ∧
    ((actionOwner a s).1).rate = s.rate ∧ ((actionOwner a s).1).attention = s.attention ∧
    ((actionOwner a s).1).latches = s.latches ∧ ((actionOwner a s).1).busOut = s.busOut ∧
    ((actionOwner a s).1).sram = s.sram ∧ ((actionOwner a s).1).timebase = s.timebase ∧
    ((actionOwner a s).1).directiveParser = s.directiveParser ∧
    ((actionOwner a s).1).lastOutcome = s.lastOutcome ∧ ((actionOwner a s).1).cues = s.cues ∧
    ((actionOwner a s).1).pending = s.pending := by
  unfold actionOwner
  try dsimp only
  (repeat' split) <;> simp

/-- Settling a cue action changes the counters and attention. -/
@[simp] theorem settleAction_frame (r : Result) (s : State) :
    (settleAction r s).resetLow = s.resetLow ∧ (settleAction r s).span = s.span ∧
    (settleAction r s).rate = s.rate ∧ (settleAction r s).latches = s.latches ∧
    (settleAction r s).busOut = s.busOut ∧ (settleAction r s).sram = s.sram ∧
    (settleAction r s).timebase = s.timebase ∧ (settleAction r s).laneA = s.laneA ∧
    (settleAction r s).laneB = s.laneB ∧ (settleAction r s).directiveParser = s.directiveParser ∧
    (settleAction r s).retiming = s.retiming ∧ (settleAction r s).schedule = s.schedule ∧
    (settleAction r s).floor = s.floor ∧ (settleAction r s).composer = s.composer ∧
    (settleAction r s).emission = s.emission ∧ (settleAction r s).lastOutcome = s.lastOutcome ∧
    (settleAction r s).cues = s.cues ∧ (settleAction r s).service = s.service ∧
    (settleAction r s).image = s.image ∧ (settleAction r s).pending = s.pending := by
  unfold settleAction
  try dsimp only
  (repeat' split) <;> simp

/-- A firing changes what its action changes, the counters and attention. -/
@[simp] theorem fireCue_frame (c : Cue) (s : State) :
    (fireCue c s).resetLow = s.resetLow ∧ (fireCue c s).span = s.span ∧
    (fireCue c s).rate = s.rate ∧ (fireCue c s).latches = s.latches ∧
    (fireCue c s).busOut = s.busOut ∧ (fireCue c s).sram = s.sram ∧
    (fireCue c s).timebase = s.timebase ∧ (fireCue c s).directiveParser = s.directiveParser ∧
    (fireCue c s).lastOutcome = s.lastOutcome ∧ (fireCue c s).cues = s.cues ∧
    (fireCue c s).pending = s.pending := by
  simp [fireCue]

/-- So does firing the oldest due cue, and the cue table. -/
@[simp] theorem fireOldest_frame (s : State) :
    (fireOldest s).resetLow = s.resetLow ∧ (fireOldest s).span = s.span ∧
    (fireOldest s).rate = s.rate ∧ (fireOldest s).latches = s.latches ∧
    (fireOldest s).busOut = s.busOut ∧ (fireOldest s).sram = s.sram ∧
    (fireOldest s).timebase = s.timebase ∧ (fireOldest s).directiveParser = s.directiveParser ∧
    (fireOldest s).lastOutcome = s.lastOutcome ∧ (fireOldest s).pending = s.pending := by
  unfold fireOldest
  try dsimp only
  (repeat' split) <;> simp

/-- So does firing several. -/
@[simp] theorem fireUpTo_frame (n : Nat) (s : State) :
    (fireUpTo n s).resetLow = s.resetLow ∧ (fireUpTo n s).span = s.span ∧
    (fireUpTo n s).rate = s.rate ∧ (fireUpTo n s).latches = s.latches ∧
    (fireUpTo n s).busOut = s.busOut ∧ (fireUpTo n s).sram = s.sram ∧
    (fireUpTo n s).timebase = s.timebase ∧ (fireUpTo n s).directiveParser = s.directiveParser ∧
    (fireUpTo n s).lastOutcome = s.lastOutcome ∧ (fireUpTo n s).pending = s.pending := by
  induction n generalizing s with
  | zero => simp [fireUpTo]
  | succ n ih => simp [fireUpTo, ih]

/-- So does firing some. -/
@[simp] theorem fireSome_frame (n : Nat) (s : State) :
    (fireSome n s).resetLow = s.resetLow ∧ (fireSome n s).span = s.span ∧
    (fireSome n s).rate = s.rate ∧ (fireSome n s).latches = s.latches ∧
    (fireSome n s).busOut = s.busOut ∧ (fireSome n s).sram = s.sram ∧
    (fireSome n s).timebase = s.timebase ∧ (fireSome n s).directiveParser = s.directiveParser ∧
    (fireSome n s).lastOutcome = s.lastOutcome ∧ (fireSome n s).pending = s.pending := by
  simp [fireSome]

/-- So does firing all. -/
@[simp] theorem fireAll_frame (s : State) :
    (fireAll s).resetLow = s.resetLow ∧ (fireAll s).span = s.span ∧ (fireAll s).rate = s.rate ∧
    (fireAll s).latches = s.latches ∧ (fireAll s).busOut = s.busOut ∧ (fireAll s).sram = s.sram ∧
    (fireAll s).timebase = s.timebase ∧ (fireAll s).directiveParser = s.directiveParser ∧
    (fireAll s).lastOutcome = s.lastOutcome ∧ (fireAll s).pending = s.pending := by
  simp [fireAll]

/-- The reactions change what their blocks own. -/
@[simp] theorem react_frame (o : FrameOrder) (s : State) :
    (react o s).resetLow = s.resetLow ∧ (react o s).span = s.span ∧ (react o s).rate = s.rate ∧
    (react o s).latches = s.latches ∧ (react o s).busOut = s.busOut ∧ (react o s).sram = s.sram ∧
    (react o s).directiveParser = s.directiveParser ∧ (react o s).lastOutcome = s.lastOutcome ∧
    (react o s).pending = s.pending := by
  unfold react reactionsOf
  try dsimp only
  (repeat' split) <;> simp

/-- A frame event changes what its blocks own. -/
@[simp] theorem frameEvent_frame (o : FrameOrder) (closes : Bool) (s : State) :
    (frameEvent o closes s).resetLow = s.resetLow ∧ (frameEvent o closes s).span = s.span ∧
    (frameEvent o closes s).rate = s.rate ∧ (frameEvent o closes s).latches = s.latches ∧
    (frameEvent o closes s).busOut = s.busOut ∧ (frameEvent o closes s).sram = s.sram ∧
    (frameEvent o closes s).lastOutcome = s.lastOutcome ∧
    (frameEvent o closes s).pending = s.pending := by
  simp [frameEvent]

/-- So does the deadline. -/
@[simp] theorem deadlineReached_frame (o : FrameOrder) (moment : Nat) (s : State) :
    (deadlineReached o moment s).resetLow = s.resetLow ∧
    (deadlineReached o moment s).span = s.span ∧ (deadlineReached o moment s).rate = s.rate ∧
    (deadlineReached o moment s).latches = s.latches ∧
    (deadlineReached o moment s).busOut = s.busOut ∧ (deadlineReached o moment s).sram = s.sram ∧
    (deadlineReached o moment s).lastOutcome = s.lastOutcome ∧
    (deadlineReached o moment s).pending = s.pending := by
  simp [deadlineReached]

/-- So does the next pulse. -/
@[simp] theorem pulseReached_frame (o : FrameOrder) (moment : Nat) (s : State) :
    (pulseReached o moment s).resetLow = s.resetLow ∧ (pulseReached o moment s).span = s.span ∧
    (pulseReached o moment s).rate = s.rate ∧ (pulseReached o moment s).latches = s.latches ∧
    (pulseReached o moment s).busOut = s.busOut ∧ (pulseReached o moment s).sram = s.sram ∧
    (pulseReached o moment s).lastOutcome = s.lastOutcome ∧
    (pulseReached o moment s).pending = s.pending := by
  simp [pulseReached]

/-- So does either. -/
@[simp] theorem internalEvent_frame (o : FrameOrder) (moment : Nat) (s : State) :
    (internalEvent o moment s).resetLow = s.resetLow ∧ (internalEvent o moment s).span = s.span ∧
    (internalEvent o moment s).rate = s.rate ∧ (internalEvent o moment s).latches = s.latches ∧
    (internalEvent o moment s).busOut = s.busOut ∧ (internalEvent o moment s).sram = s.sram ∧
    (internalEvent o moment s).lastOutcome = s.lastOutcome ∧
    (internalEvent o moment s).pending = s.pending := by
  unfold internalEvent
  try dsimp only
  (repeat' split) <;> simp

/-- So does the clock as it runs. -/
@[simp] theorem runClock_frame (fuel : Nat) (o : FrameOrder) (moment : Nat) (s : State) :
    (runClock fuel o moment s).resetLow = s.resetLow ∧ (runClock fuel o moment s).span = s.span ∧
    (runClock fuel o moment s).rate = s.rate ∧ (runClock fuel o moment s).latches = s.latches ∧
    (runClock fuel o moment s).busOut = s.busOut ∧ (runClock fuel o moment s).sram = s.sram ∧
    (runClock fuel o moment s).lastOutcome = s.lastOutcome ∧
    (runClock fuel o moment s).pending = s.pending := by
  induction fuel generalizing s with
  | zero => simp [runClock]
  | succ n ih =>
    unfold runClock
    try dsimp only
    (repeat' split) <;> simp [ih]

/-- Locking changes the timebase alone. -/
@[simp] theorem lockAt_frame (moment : Nat) (s : State) :
    (lockAt moment s).resetLow = s.resetLow ∧ (lockAt moment s).span = s.span ∧
    (lockAt moment s).rate = s.rate ∧ (lockAt moment s).attention = s.attention ∧
    (lockAt moment s).latches = s.latches ∧ (lockAt moment s).busOut = s.busOut ∧
    (lockAt moment s).sram = s.sram ∧ (lockAt moment s).laneA = s.laneA ∧
    (lockAt moment s).laneB = s.laneB ∧ (lockAt moment s).directiveParser = s.directiveParser ∧
    (lockAt moment s).retiming = s.retiming ∧ (lockAt moment s).schedule = s.schedule ∧
    (lockAt moment s).floor = s.floor ∧ (lockAt moment s).composer = s.composer ∧
    (lockAt moment s).emission = s.emission ∧ (lockAt moment s).lastOutcome = s.lastOutcome ∧
    (lockAt moment s).cues = s.cues ∧ (lockAt moment s).service = s.service ∧
    (lockAt moment s).image = s.image ∧ (lockAt moment s).counters = s.counters ∧
    (lockAt moment s).pending = s.pending := by
  simp [lockAt]

/-- An edge changes what a frame event changes. -/
@[simp] theorem edgeAt_frame (o : FrameOrder) (moment : Nat) (s : State) :
    (edgeAt o moment s).resetLow = s.resetLow ∧ (edgeAt o moment s).span = s.span ∧
    (edgeAt o moment s).rate = s.rate ∧ (edgeAt o moment s).latches = s.latches ∧
    (edgeAt o moment s).busOut = s.busOut ∧ (edgeAt o moment s).sram = s.sram ∧
    (edgeAt o moment s).lastOutcome = s.lastOutcome ∧ (edgeAt o moment s).pending = s.pending := by
  unfold edgeAt
  try dsimp only
  (repeat' split) <;> simp

/-- So does an edge after some time. -/
@[simp] theorem edgeAfter_frame (elapsed : Nat) (o : FrameOrder) (s : State) :
    (edgeAfter elapsed o s).resetLow = s.resetLow ∧ (edgeAfter elapsed o s).span = s.span ∧
    (edgeAfter elapsed o s).rate = s.rate ∧ (edgeAfter elapsed o s).latches = s.latches ∧
    (edgeAfter elapsed o s).busOut = s.busOut ∧ (edgeAfter elapsed o s).sram = s.sram ∧
    (edgeAfter elapsed o s).lastOutcome = s.lastOutcome ∧
    (edgeAfter elapsed o s).pending = s.pending := by
  simp [edgeAfter]

/-- Loading an image changes the working state and the ticker. -/
@[simp] theorem loadSections_frame (ws : List Word) (g : ImageSections) (s : State) :
    (loadSections ws g s).resetLow = s.resetLow ∧ (loadSections ws g s).span = s.span ∧
    (loadSections ws g s).rate = s.rate ∧ (loadSections ws g s).attention = s.attention ∧
    (loadSections ws g s).latches = s.latches ∧ (loadSections ws g s).busOut = s.busOut ∧
    (loadSections ws g s).sram = s.sram ∧
    (loadSections ws g s).directiveParser = s.directiveParser ∧
    (loadSections ws g s).emission = s.emission ∧
    (loadSections ws g s).lastOutcome = s.lastOutcome ∧ (loadSections ws g s).service = s.service ∧
    (loadSections ws g s).pending = s.pending := by
  simp [loadSections]

/-- So does RESTORE_COMMIT. -/
@[simp] theorem commitRestore_frame (s : State) :
    ((commitRestore s).1).resetLow = s.resetLow ∧ ((commitRestore s).1).span = s.span ∧
    ((commitRestore s).1).rate = s.rate ∧ ((commitRestore s).1).attention = s.attention ∧
    ((commitRestore s).1).latches = s.latches ∧ ((commitRestore s).1).busOut = s.busOut ∧
    ((commitRestore s).1).sram = s.sram ∧
    ((commitRestore s).1).directiveParser = s.directiveParser ∧
    ((commitRestore s).1).emission = s.emission ∧
    ((commitRestore s).1).lastOutcome = s.lastOutcome ∧ ((commitRestore s).1).service = s.service ∧
    ((commitRestore s).1).pending = s.pending := by
  unfold commitRestore
  try dsimp only
  (repeat' split) <;> simp

/-- ZERO_COUNTS changes the counters and the maximum lateness. -/
@[simp] theorem zeroCounts_frame (s : State) :
    (zeroCounts s).resetLow = s.resetLow ∧ (zeroCounts s).span = s.span ∧
    (zeroCounts s).rate = s.rate ∧ (zeroCounts s).attention = s.attention ∧
    (zeroCounts s).latches = s.latches ∧ (zeroCounts s).busOut = s.busOut ∧
    (zeroCounts s).sram = s.sram ∧ (zeroCounts s).timebase = s.timebase ∧
    (zeroCounts s).laneA = s.laneA ∧ (zeroCounts s).laneB = s.laneB ∧
    (zeroCounts s).directiveParser = s.directiveParser ∧ (zeroCounts s).schedule = s.schedule ∧
    (zeroCounts s).floor = s.floor ∧ (zeroCounts s).composer = s.composer ∧
    (zeroCounts s).emission = s.emission ∧ (zeroCounts s).lastOutcome = s.lastOutcome ∧
    (zeroCounts s).cues = s.cues ∧ (zeroCounts s).service = s.service ∧
    (zeroCounts s).image = s.image ∧ (zeroCounts s).pending = s.pending := by
  simp [zeroCounts]

/-- RESTART changes the caption pipeline, the floor, the cues and the service. -/
@[simp] theorem restart_frame (s : State) :
    (restart s).resetLow = s.resetLow ∧ (restart s).span = s.span ∧ (restart s).rate = s.rate ∧
    (restart s).attention = s.attention ∧ (restart s).latches = s.latches ∧
    (restart s).busOut = s.busOut ∧ (restart s).sram = s.sram ∧ (restart s).timebase = s.timebase ∧
    (restart s).directiveParser = s.directiveParser ∧ (restart s).lastOutcome = s.lastOutcome ∧
    (restart s).counters = s.counters ∧ (restart s).pending = s.pending := by
  simp [restart]

/-- No directive changes more than these. -/
@[simp] theorem directiveOwner_frame (d : Directive) (tag : Byte) (params : List Word) (s : State) :
    ((directiveOwner d tag params s).1).resetLow = s.resetLow ∧
    ((directiveOwner d tag params s).1).span = s.span ∧
    ((directiveOwner d tag params s).1).rate = s.rate ∧
    ((directiveOwner d tag params s).1).attention = s.attention ∧
    ((directiveOwner d tag params s).1).latches = s.latches ∧
    ((directiveOwner d tag params s).1).busOut = s.busOut ∧
    ((directiveOwner d tag params s).1).sram = s.sram ∧
    ((directiveOwner d tag params s).1).directiveParser = s.directiveParser ∧
    ((directiveOwner d tag params s).1).lastOutcome = s.lastOutcome ∧
    ((directiveOwner d tag params s).1).pending = s.pending := by
  unfold directiveOwner
  try dsimp only
  (repeat' split) <;> simp

/-- Nor does its judgement. -/
@[simp] theorem judgeDirective_frame (d : Directive) (tag : Byte) (params : List Word) (s : State) :
    ((judgeDirective d tag params s).1).resetLow = s.resetLow ∧
    ((judgeDirective d tag params s).1).span = s.span ∧
    ((judgeDirective d tag params s).1).rate = s.rate ∧
    ((judgeDirective d tag params s).1).attention = s.attention ∧
    ((judgeDirective d tag params s).1).latches = s.latches ∧
    ((judgeDirective d tag params s).1).busOut = s.busOut ∧
    ((judgeDirective d tag params s).1).sram = s.sram ∧
    ((judgeDirective d tag params s).1).directiveParser = s.directiveParser ∧
    ((judgeDirective d tag params s).1).lastOutcome = s.lastOutcome ∧
    ((judgeDirective d tag params s).1).pending = s.pending := by
  unfold judgeDirective
  try dsimp only
  (repeat' split) <;> simp

/-- Settling an outcome changes the counters and attention. -/
@[simp] theorem settleOutcome_frame (r : Result) (s : State) :
    (settleOutcome r s).resetLow = s.resetLow ∧ (settleOutcome r s).span = s.span ∧
    (settleOutcome r s).rate = s.rate ∧ (settleOutcome r s).latches = s.latches ∧
    (settleOutcome r s).busOut = s.busOut ∧ (settleOutcome r s).sram = s.sram ∧
    (settleOutcome r s).timebase = s.timebase ∧ (settleOutcome r s).laneA = s.laneA ∧
    (settleOutcome r s).laneB = s.laneB ∧ (settleOutcome r s).directiveParser = s.directiveParser ∧
    (settleOutcome r s).retiming = s.retiming ∧ (settleOutcome r s).schedule = s.schedule ∧
    (settleOutcome r s).floor = s.floor ∧ (settleOutcome r s).composer = s.composer ∧
    (settleOutcome r s).emission = s.emission ∧ (settleOutcome r s).lastOutcome = s.lastOutcome ∧
    (settleOutcome r s).cues = s.cues ∧ (settleOutcome r s).service = s.service ∧
    (settleOutcome r s).image = s.image ∧ (settleOutcome r s).pending = s.pending := by
  unfold settleOutcome
  try dsimp only
  (repeat' split) <;> simp

/-- A directive record changes these, attention and the last-outcome record. -/
@[simp] theorem carryOut_frame (d : Directive) (tag : Byte) (params : List Word) (s : State) :
    (carryOut d tag params s).resetLow = s.resetLow ∧ (carryOut d tag params s).span = s.span ∧
    (carryOut d tag params s).rate = s.rate ∧ (carryOut d tag params s).latches = s.latches ∧
    (carryOut d tag params s).busOut = s.busOut ∧ (carryOut d tag params s).sram = s.sram ∧
    (carryOut d tag params s).directiveParser = s.directiveParser ∧
    (carryOut d tag params s).pending = s.pending := by
  simp [carryOut, finishDirective]

/-- So does a record of any code. -/
@[simp] theorem directiveRecord_frame (code : BitVec 5) (tag : Byte) (params : List Word) (s : State) :
    (directiveRecord code tag params s).resetLow = s.resetLow ∧
    (directiveRecord code tag params s).span = s.span ∧
    (directiveRecord code tag params s).rate = s.rate ∧
    (directiveRecord code tag params s).latches = s.latches ∧
    (directiveRecord code tag params s).busOut = s.busOut ∧
    (directiveRecord code tag params s).sram = s.sram ∧
    (directiveRecord code tag params s).directiveParser = s.directiveParser ∧
    (directiveRecord code tag params s).pending = s.pending := by
  unfold directiveRecord
  try dsimp only
  (repeat' split) <;> simp [finishDirective]

/-- A WORD's token changes what a token record changes. -/
@[simp] theorem makeWord_frame (x : Lane) (sentEnd attach : Bool) (length : BitVec 6) (chars : List Word) (s : State) :
    (makeWord x sentEnd attach length chars s).resetLow = s.resetLow ∧
    (makeWord x sentEnd attach length chars s).span = s.span ∧
    (makeWord x sentEnd attach length chars s).rate = s.rate ∧
    (makeWord x sentEnd attach length chars s).latches = s.latches ∧
    (makeWord x sentEnd attach length chars s).busOut = s.busOut ∧
    (makeWord x sentEnd attach length chars s).sram = s.sram ∧
    (makeWord x sentEnd attach length chars s).timebase = s.timebase ∧
    (makeWord x sentEnd attach length chars s).directiveParser = s.directiveParser ∧
    (makeWord x sentEnd attach length chars s).composer = s.composer ∧
    (makeWord x sentEnd attach length chars s).emission = s.emission ∧
    (makeWord x sentEnd attach length chars s).lastOutcome = s.lastOutcome ∧
    (makeWord x sentEnd attach length chars s).cues = s.cues ∧
    (makeWord x sentEnd attach length chars s).service = s.service ∧
    (makeWord x sentEnd attach length chars s).image = s.image ∧
    (makeWord x sentEnd attach length chars s).pending = s.pending := by
  simp [makeWord]

/-- So does a WORD record. -/
@[simp] theorem commitWord_frame (x : Lane) (sentEnd attach : Bool) (length : BitVec 6) (chars : List Word) (s : State) :
    (commitWord x sentEnd attach length chars s).resetLow = s.resetLow ∧
    (commitWord x sentEnd attach length chars s).span = s.span ∧
    (commitWord x sentEnd attach length chars s).rate = s.rate ∧
    (commitWord x sentEnd attach length chars s).latches = s.latches ∧
    (commitWord x sentEnd attach length chars s).busOut = s.busOut ∧
    (commitWord x sentEnd attach length chars s).sram = s.sram ∧
    (commitWord x sentEnd attach length chars s).timebase = s.timebase ∧
    (commitWord x sentEnd attach length chars s).directiveParser = s.directiveParser ∧
    (commitWord x sentEnd attach length chars s).composer = s.composer ∧
    (commitWord x sentEnd attach length chars s).emission = s.emission ∧
    (commitWord x sentEnd attach length chars s).lastOutcome = s.lastOutcome ∧
    (commitWord x sentEnd attach length chars s).cues = s.cues ∧
    (commitWord x sentEnd attach length chars s).service = s.service ∧
    (commitWord x sentEnd attach length chars s).image = s.image ∧
    (commitWord x sentEnd attach length chars s).pending = s.pending := by
  unfold commitWord unlessFilling
  try dsimp only
  (repeat' split) <;> simp

/-- So does a SPEAKER or BREAK record. -/
@[simp] theorem commitPlain_frame (x : Lane) (kind : TokenKind) (sentEnd attach : Bool) (s : State) :
    (commitPlain x kind sentEnd attach s).resetLow = s.resetLow ∧
    (commitPlain x kind sentEnd attach s).span = s.span ∧
    (commitPlain x kind sentEnd attach s).rate = s.rate ∧
    (commitPlain x kind sentEnd attach s).latches = s.latches ∧
    (commitPlain x kind sentEnd attach s).busOut = s.busOut ∧
    (commitPlain x kind sentEnd attach s).sram = s.sram ∧
    (commitPlain x kind sentEnd attach s).timebase = s.timebase ∧
    (commitPlain x kind sentEnd attach s).directiveParser = s.directiveParser ∧
    (commitPlain x kind sentEnd attach s).composer = s.composer ∧
    (commitPlain x kind sentEnd attach s).emission = s.emission ∧
    (commitPlain x kind sentEnd attach s).lastOutcome = s.lastOutcome ∧
    (commitPlain x kind sentEnd attach s).cues = s.cues ∧
    (commitPlain x kind sentEnd attach s).service = s.service ∧
    (commitPlain x kind sentEnd attach s).image = s.image ∧
    (commitPlain x kind sentEnd attach s).pending = s.pending := by
  unfold commitPlain unlessFilling
  try dsimp only
  (repeat' split) <;> simp

/-- A CORRECT record changes what a correction changes. -/
@[simp] theorem commitCorrect_frame (x : Lane) (n : BitVec 6) (s : State) :
    (commitCorrect x n s).resetLow = s.resetLow ∧ (commitCorrect x n s).span = s.span ∧
    (commitCorrect x n s).rate = s.rate ∧ (commitCorrect x n s).attention = s.attention ∧
    (commitCorrect x n s).latches = s.latches ∧ (commitCorrect x n s).busOut = s.busOut ∧
    (commitCorrect x n s).sram = s.sram ∧ (commitCorrect x n s).timebase = s.timebase ∧
    (commitCorrect x n s).directiveParser = s.directiveParser ∧
    (commitCorrect x n s).lastOutcome = s.lastOutcome ∧ (commitCorrect x n s).cues = s.cues ∧
    (commitCorrect x n s).service = s.service ∧ (commitCorrect x n s).image = s.image ∧
    (commitCorrect x n s).pending = s.pending := by
  unfold commitCorrect unlessFilling
  try dsimp only
  (repeat' split) <;> simp

/-- A record of unknown kind changes the counters alone. -/
@[simp] theorem commitUnknown_frame (s : State) :
    (commitUnknown s).resetLow = s.resetLow ∧ (commitUnknown s).span = s.span ∧
    (commitUnknown s).rate = s.rate ∧ (commitUnknown s).attention = s.attention ∧
    (commitUnknown s).latches = s.latches ∧ (commitUnknown s).busOut = s.busOut ∧
    (commitUnknown s).sram = s.sram ∧ (commitUnknown s).timebase = s.timebase ∧
    (commitUnknown s).laneA = s.laneA ∧ (commitUnknown s).laneB = s.laneB ∧
    (commitUnknown s).directiveParser = s.directiveParser ∧
    (commitUnknown s).retiming = s.retiming ∧ (commitUnknown s).schedule = s.schedule ∧
    (commitUnknown s).floor = s.floor ∧ (commitUnknown s).composer = s.composer ∧
    (commitUnknown s).emission = s.emission ∧ (commitUnknown s).lastOutcome = s.lastOutcome ∧
    (commitUnknown s).cues = s.cues ∧ (commitUnknown s).service = s.service ∧
    (commitUnknown s).image = s.image ∧ (commitUnknown s).pending = s.pending := by
  simp [commitUnknown]

/-- A lane record changes what its kind changes. -/
@[simp] theorem commitLane_frame (x : Lane) (header : Word) (body : List Word) (s : State) :
    (commitLane x header body s).resetLow = s.resetLow ∧
    (commitLane x header body s).span = s.span ∧ (commitLane x header body s).rate = s.rate ∧
    (commitLane x header body s).latches = s.latches ∧
    (commitLane x header body s).busOut = s.busOut ∧ (commitLane x header body s).sram = s.sram ∧
    (commitLane x header body s).timebase = s.timebase ∧
    (commitLane x header body s).directiveParser = s.directiveParser ∧
    (commitLane x header body s).lastOutcome = s.lastOutcome ∧
    (commitLane x header body s).cues = s.cues ∧ (commitLane x header body s).service = s.service ∧
    (commitLane x header body s).image = s.image ∧ (commitLane x header body s).pending = s.pending := by
  unfold commitLane
  try dsimp only
  (repeat' split) <;> simp

/-- A record changes what its destination changes. -/
@[simp] theorem commitRecord_frame (r : Ring) (header : Word) (body : List Word) (s : State) :
    (commitRecord r header body s).resetLow = s.resetLow ∧
    (commitRecord r header body s).span = s.span ∧ (commitRecord r header body s).rate = s.rate ∧
    (commitRecord r header body s).latches = s.latches ∧
    (commitRecord r header body s).busOut = s.busOut ∧
    (commitRecord r header body s).sram = s.sram ∧
    (commitRecord r header body s).directiveParser = s.directiveParser ∧
    (commitRecord r header body s).pending = s.pending := by
  unfold commitRecord
  try dsimp only
  (repeat' split) <;> simp

/-- A header changes the parser and what its record changes. -/
@[simp] theorem takeHeader_frame (r : Ring) (off : Nat) (w : Word) (s : State) :
    (takeHeader r off w s).resetLow = s.resetLow ∧ (takeHeader r off w s).span = s.span ∧
    (takeHeader r off w s).rate = s.rate ∧ (takeHeader r off w s).latches = s.latches ∧
    (takeHeader r off w s).busOut = s.busOut ∧ (takeHeader r off w s).sram = s.sram ∧
    (takeHeader r off w s).pending = s.pending := by
  unfold takeHeader
  try dsimp only
  (repeat' split) <;> simp

/-- So does a later word. -/
@[simp] theorem takeBody_frame (r : Ring) (st : Staging) (off : Nat) (w : Word) (s : State) :
    (takeBody r st off w s).resetLow = s.resetLow ∧ (takeBody r st off w s).span = s.span ∧
    (takeBody r st off w s).rate = s.rate ∧ (takeBody r st off w s).latches = s.latches ∧
    (takeBody r st off w s).busOut = s.busOut ∧ (takeBody r st off w s).sram = s.sram ∧
    (takeBody r st off w s).pending = s.pending := by
  unfold takeBody
  try dsimp only
  (repeat' split) <;> simp

/-- So does a discontinuity. -/
@[simp] theorem discontinuity_frame (r : Ring) (off : Nat) (w : Word) (s : State) :
    (discontinuity r off w s).resetLow = s.resetLow ∧ (discontinuity r off w s).span = s.span ∧
    (discontinuity r off w s).rate = s.rate ∧ (discontinuity r off w s).latches = s.latches ∧
    (discontinuity r off w s).busOut = s.busOut ∧ (discontinuity r off w s).sram = s.sram ∧
    (discontinuity r off w s).pending = s.pending := by
  simp [discontinuity]

/-- So does any write to a ring. -/
@[simp] theorem followWrite_frame (r : Ring) (off : Nat) (w : Word) (s : State) :
    (followWrite r off w s).resetLow = s.resetLow ∧ (followWrite r off w s).span = s.span ∧
    (followWrite r off w s).rate = s.rate ∧ (followWrite r off w s).latches = s.latches ∧
    (followWrite r off w s).busOut = s.busOut ∧ (followWrite r off w s).sram = s.sram ∧
    (followWrite r off w s).pending = s.pending := by
  unfold followWrite
  try dsimp only
  (repeat' split) <;> simp

/-- A report read changes attention or a latch. -/
@[simp] theorem reportRead_frame (n : BitVec 6) (s : State) :
    (reportRead n s).resetLow = s.resetLow ∧ (reportRead n s).span = s.span ∧
    (reportRead n s).rate = s.rate ∧ (reportRead n s).busOut = s.busOut ∧
    (reportRead n s).sram = s.sram ∧ (reportRead n s).timebase = s.timebase ∧
    (reportRead n s).laneA = s.laneA ∧ (reportRead n s).laneB = s.laneB ∧
    (reportRead n s).directiveParser = s.directiveParser ∧ (reportRead n s).retiming = s.retiming ∧
    (reportRead n s).schedule = s.schedule ∧ (reportRead n s).floor = s.floor ∧
    (reportRead n s).composer = s.composer ∧ (reportRead n s).emission = s.emission ∧
    (reportRead n s).lastOutcome = s.lastOutcome ∧ (reportRead n s).cues = s.cues ∧
    (reportRead n s).service = s.service ∧ (reportRead n s).image = s.image ∧
    (reportRead n s).counters = s.counters ∧ (reportRead n s).pending = s.pending := by
  unfold reportRead
  try dsimp only
  (repeat' split) <;> simp

/-- A passed write changes the SRAM. -/
@[simp] theorem passWrite_frame (ma : BitVec 20) (data : Word) (s : State) :
    (passWrite ma data s).resetLow = s.resetLow ∧ (passWrite ma data s).span = s.span ∧
    (passWrite ma data s).rate = s.rate ∧ (passWrite ma data s).attention = s.attention ∧
    (passWrite ma data s).latches = s.latches ∧ (passWrite ma data s).timebase = s.timebase ∧
    (passWrite ma data s).laneA = s.laneA ∧ (passWrite ma data s).laneB = s.laneB ∧
    (passWrite ma data s).directiveParser = s.directiveParser ∧
    (passWrite ma data s).retiming = s.retiming ∧ (passWrite ma data s).schedule = s.schedule ∧
    (passWrite ma data s).floor = s.floor ∧ (passWrite ma data s).composer = s.composer ∧
    (passWrite ma data s).emission = s.emission ∧
    (passWrite ma data s).lastOutcome = s.lastOutcome ∧ (passWrite ma data s).cues = s.cues ∧
    (passWrite ma data s).service = s.service ∧ (passWrite ma data s).image = s.image ∧
    (passWrite ma data s).counters = s.counters ∧ (passWrite ma data s).pending = s.pending := by
  simp [passWrite]

/-- A passed read changes nothing but the data lines. -/
@[simp] theorem passRead_frame (ma : BitVec 20) (s : State) :
    (passRead ma s).resetLow = s.resetLow ∧ (passRead ma s).span = s.span ∧
    (passRead ma s).rate = s.rate ∧ (passRead ma s).attention = s.attention ∧
    (passRead ma s).latches = s.latches ∧ (passRead ma s).sram = s.sram ∧
    (passRead ma s).timebase = s.timebase ∧ (passRead ma s).laneA = s.laneA ∧
    (passRead ma s).laneB = s.laneB ∧ (passRead ma s).directiveParser = s.directiveParser ∧
    (passRead ma s).retiming = s.retiming ∧ (passRead ma s).schedule = s.schedule ∧
    (passRead ma s).floor = s.floor ∧ (passRead ma s).composer = s.composer ∧
    (passRead ma s).emission = s.emission ∧ (passRead ma s).lastOutcome = s.lastOutcome ∧
    (passRead ma s).cues = s.cues ∧ (passRead ma s).service = s.service ∧
    (passRead ma s).image = s.image ∧ (passRead ma s).counters = s.counters ∧
    (passRead ma s).pending = s.pending := by
  simp [passRead]

/-- Nor does an answer. -/
@[simp] theorem answer_frame (w : Word) (s : State) :
    (answer w s).resetLow = s.resetLow ∧ (answer w s).span = s.span ∧ (answer w s).rate = s.rate ∧
    (answer w s).attention = s.attention ∧ (answer w s).latches = s.latches ∧
    (answer w s).sram = s.sram ∧ (answer w s).timebase = s.timebase ∧
    (answer w s).laneA = s.laneA ∧ (answer w s).laneB = s.laneB ∧
    (answer w s).directiveParser = s.directiveParser ∧ (answer w s).retiming = s.retiming ∧
    (answer w s).schedule = s.schedule ∧ (answer w s).floor = s.floor ∧
    (answer w s).composer = s.composer ∧ (answer w s).emission = s.emission ∧
    (answer w s).lastOutcome = s.lastOutcome ∧ (answer w s).cues = s.cues ∧
    (answer w s).service = s.service ∧ (answer w s).image = s.image ∧
    (answer w s).counters = s.counters ∧ (answer w s).pending = s.pending := by
  simp [answer]

/-- A write access changes the SRAM and what its window's block changes. -/
@[simp] theorem busWrite_frame (requester : Requester) (ma : BitVec 20) (data : Word) (s : State) :
    (busWrite requester ma data s).resetLow = s.resetLow ∧
    (busWrite requester ma data s).span = s.span ∧ (busWrite requester ma data s).rate = s.rate ∧
    (busWrite requester ma data s).latches = s.latches ∧
    (busWrite requester ma data s).pending = s.pending := by
  unfold busWrite
  try dsimp only
  (repeat' split) <;> simp

/-- A read access changes what its window's block changes. -/
@[simp] theorem busRead_frame (requester : Requester) (ma : BitVec 20) (s : State) :
    (busRead requester ma s).resetLow = s.resetLow ∧ (busRead requester ma s).span = s.span ∧
    (busRead requester ma s).rate = s.rate ∧ (busRead requester ma s).sram = s.sram ∧
    (busRead requester ma s).timebase = s.timebase ∧
    (busRead requester ma s).directiveParser = s.directiveParser ∧
    (busRead requester ma s).schedule = s.schedule ∧ (busRead requester ma s).floor = s.floor ∧
    (busRead requester ma s).lastOutcome = s.lastOutcome ∧ (busRead requester ma s).cues = s.cues ∧
    (busRead requester ma s).service = s.service ∧ (busRead requester ma s).pending = s.pending := by
  unfold busRead
  try dsimp only
  (repeat' split) <;> simp

end Sys2Proof.Machine
end

