-- ==== Sys2Proof/Laws/Memory.lean ====
section
/-! SUPPORT. The laws of the card's SRAM: what a read gives after a write, and that every operation
keeps the canonical form. -/

namespace Sys2Proof.Machine

/-- An inserted word is read back, and every other address reads as before. -/
theorem Memory.read_insert (m : Memory) (a b : Nat) (w : Word) :
    Memory.read (Memory.insert m a w) b = if b = a then w else Memory.read m b := by
  induction m with
  | nil => simp [Memory.insert, Memory.read]
  | cons e rest ih =>
    obtain ⟨c, v⟩ := e
    unfold Memory.insert
    split
    · simp [Memory.read]
    · split
      · next h => subst h; simp only [Memory.read]; split <;> simp_all
      · next h =>
        simp only [Memory.read, ih]
        split
        · next h' => subst h'; simp [Ne.symm h]
        · rfl

/-- An address above every bound of a memory in canonical form is not listed below it. -/
theorem Memory.read_of_wfAbove {m : Memory} {l a : Nat} (h : m.wfAbove (some l) = true)
    (ha : a ≤ l) : Memory.read m a = Config.sramUnwritten := by
  induction m generalizing l with
  | nil => rfl
  | cons e rest ih =>
    obtain ⟨c, v⟩ := e
    simp only [Memory.wfAbove, Memory.above, Bool.and_eq_true, decide_eq_true_eq] at h
    have hne : a ≠ c := by omega
    simp only [Memory.read, hne, if_false]
    exact ih h.2 (by omega)

/-- Raising the bound below a memory in canonical form, up to its first address. -/
theorem Memory.wfAbove_weaken {m : Memory} {l : Nat} {lo : Option Nat}
    (h : m.wfAbove (some l) = true) (hlo : ∀ k, lo = some k → k ≤ l) : m.wfAbove lo = true := by
  cases m with
  | nil => rfl
  | cons e rest =>
    obtain ⟨c, v⟩ := e
    simp only [Memory.wfAbove, Memory.above, Bool.and_eq_true, decide_eq_true_eq] at h ⊢
    refine ⟨⟨?_, h.1.2⟩, h.2⟩
    cases lo with
    | none => rfl
    | some k => have := hlo k rfl; simp; omega

/-- An unlisted address of a memory in canonical form reads as nothing written, every other as
before. -/
theorem Memory.read_erase {m : Memory} {lo : Option Nat} (h : m.wfAbove lo = true) (a b : Nat) :
    Memory.read (Memory.erase m a) b =
      if b = a then Config.sramUnwritten else Memory.read m b := by
  induction m generalizing lo with
  | nil => simp [Memory.erase, Memory.read]
  | cons e rest ih =>
    obtain ⟨c, v⟩ := e
    simp only [Memory.wfAbove, Bool.and_eq_true] at h
    unfold Memory.erase
    split
    · next hac =>
      subst hac
      by_cases hb : b = a
      · subst hb; simp [Memory.read_of_wfAbove h.2 (le_refl _)]
      · simp [Memory.read, hb]
    · next hac =>
      simp only [Memory.read, ih h.2]
      split
      · next h' => subst h'; simp [Ne.symm hac]
      · rfl

/-- A read after a write in canonical form: the word written, and elsewhere the word that stood
there. -/
theorem Memory.read_write {m : Memory} (h : m.wf = true) (a b : Nat) (w : Word) :
    Memory.read (Memory.write m a w) b = if b = a then w else Memory.read m b := by
  unfold Memory.write
  split
  · next hw => rw [Memory.read_erase h, hw]
  · exact Memory.read_insert m a b w

/-- Inserting a word above the bound keeps the canonical form. -/
theorem Memory.wfAbove_insert {m : Memory} {lo : Option Nat} (h : m.wfAbove lo = true) {a : Nat}
    {w : Word} (hw : w ≠ Config.sramUnwritten) (ha : ∀ k, lo = some k → k < a) :
    (Memory.insert m a w).wfAbove lo = true := by
  induction m generalizing lo with
  | nil =>
    cases lo <;> simp_all [Memory.insert, Memory.wfAbove, Memory.above]
  | cons e rest ih =>
    obtain ⟨c, v⟩ := e
    have hlo : Memory.above lo a = true := by
      cases lo with
      | none => rfl
      | some k => simpa [Memory.above] using ha k rfl
    simp only [Memory.wfAbove, Bool.and_eq_true] at h
    unfold Memory.insert
    split
    · next hac => simp only [Memory.wfAbove, hlo, h.1.2, h.2]; simpa [Memory.above, hac] using hw
    · split
      · next hac => subst hac; simp only [Memory.wfAbove, hlo, h.2]; simpa using hw
      · next h1 h2 =>
        simp only [Memory.wfAbove, Bool.and_eq_true]
        exact ⟨h.1, ih h.2 (by intro k hk; cases hk; omega)⟩

/-- Unlisting an address keeps the canonical form. -/
theorem Memory.wfAbove_erase {m : Memory} {lo : Option Nat} (h : m.wfAbove lo = true) (a : Nat) :
    (Memory.erase m a).wfAbove lo = true := by
  induction m generalizing lo with
  | nil => rfl
  | cons e rest ih =>
    obtain ⟨c, v⟩ := e
    have h' := h
    simp only [Memory.wfAbove, Bool.and_eq_true] at h
    unfold Memory.erase
    split
    · refine Memory.wfAbove_weaken h.2 (fun k hk => ?_)
      subst hk
      have : k < c := by simpa [Memory.above] using h.1.1
      omega
    · simp only [Memory.wfAbove, Bool.and_eq_true]
      exact ⟨h.1, ih h.2⟩

/-- Every write keeps the canonical form. -/
theorem Memory.wf_write {m : Memory} (h : m.wf = true) (a : Nat) (w : Word) :
    (Memory.write m a w).wf = true := by
  unfold Memory.write
  split
  · exact Memory.wfAbove_erase h a
  · next hw => exact Memory.wfAbove_insert h hw (by intro k hk; cases hk)

/-- The SRAM after the reset pin is in canonical form. -/
theorem reset_sram_wf : State.reset.sram.wf = true := rfl

/-- Two memories in canonical form that read the same everywhere are the same data. -/
theorem Memory.ext_of_read {m m' : Memory} {lo : Option Nat} (h : m.wfAbove lo = true)
    (h' : m'.wfAbove lo = true) (hr : ∀ a, Memory.read m a = Memory.read m' a) : m = m' := by
  induction m generalizing m' lo with
  | nil =>
    cases m' with
    | nil => rfl
    | cons e rest =>
      obtain ⟨c, v⟩ := e
      simp only [Memory.wfAbove, Bool.and_eq_true, bne_iff_ne] at h'
      have := hr c
      simp only [Memory.read, if_true] at this
      exact absurd this.symm h'.1.2
  | cons e rest ih =>
    obtain ⟨c, v⟩ := e
    cases m' with
    | nil =>
      simp only [Memory.wfAbove, Bool.and_eq_true, bne_iff_ne] at h
      have := hr c
      simp only [Memory.read, if_true] at this
      exact absurd this h.1.2
    | cons e' rest' =>
      obtain ⟨c', v'⟩ := e'
      simp only [Memory.wfAbove, Bool.and_eq_true, bne_iff_ne] at h h'
      rcases Nat.lt_trichotomy c c' with hc | hc | hc
      · have := hr c
        simp only [Memory.read, if_true, Nat.ne_of_lt hc, if_false] at this
        rw [Memory.read_of_wfAbove h'.2 (le_of_lt hc)] at this
        exact absurd this h.1.2
      · subst hc
        have hv := hr c
        simp only [Memory.read, if_true] at hv
        subst hv
        congr 1
        refine ih h.2 h'.2 (fun a => ?_)
        by_cases ha : a = c
        · subst ha
          rw [Memory.read_of_wfAbove h.2 (le_refl _), Memory.read_of_wfAbove h'.2 (le_refl _)]
        · have := hr a
          simpa [Memory.read, ha] using this
      · have := hr c'
        simp only [Memory.read, if_true, Nat.ne_of_lt hc, if_false] at this
        rw [Memory.read_of_wfAbove h.2 (le_of_lt hc)] at this
        exact absurd this.symm h'.1.2

end Sys2Proof.Machine
end

