-- ==== Sys2Proof/Laws/Effects.lean ====
section
/-! SUPPORT. What the shared operations do to the state they change, said once for each. What they
leave is in Laws/Frames.lean. -/

namespace Sys2Proof.Machine

/-! ### Counting -/

theorem countUp_toNat (w : Word) : (countUp w).toNat = min (w.toNat + 1) 65535 := by
  have hlt := w.isLt
  unfold countUp
  split
  · next h => subst h; decide
  · next h =>
    have : w.toNat ≠ 65535 := fun e => h (BitVec.eq_of_toNat_eq (by simpa using e))
    rw [BitVec.toNat_add]
    simp
    omega

/-- `n` occurrences raise their counter by `n`, saturating, and leave the others (R150). -/
theorem counterValue_countTimes (c d : Counter) (n : Nat) (s : State) :
    (counterValue d (countTimes c n s).counters).toNat =
      if d = c then min ((counterValue c s.counters).toNat + n) 65535
      else (counterValue d s.counters).toNat := by
  induction n generalizing s with
  | zero =>
    have := (counterValue c s.counters).isLt
    simp only [countTimes]
    split
    · next h => subst h; omega
    · rfl
  | succ n ih =>
    simp only [countTimes, ih, count_counters, counterValue_bumpCounter]
    split
    · simp only [if_true, countUp_toNat]; omega
    · rfl

/-! ### Notices -/

/-- Discarded notices retag the entries of the tokens named, and nothing else of a lane (R98). -/
theorem laneOf_noticeDiscarded (ts : List Token) (y : Lane) (s : State) :
    laneOf y (noticeDiscarded ts s) =
      { laneOf y s with stack := (laneOf y s).stack.map fun en =>
          if en.id ∈ ts.map (·.id) ∧ en.id.lane = y then { en with tag := tagDiscarded en.tag }
          else en } := by
  induction ts generalizing s with
  | nil => simp [noticeDiscarded]
  | cons t rest ih =>
    rw [noticeDiscarded, ih, laneOf_notice]
    split
    · next h =>
      subst h
      simp only [retag, List.map_map]
      congr 1
      apply List.map_congr_left
      intro en _
      by_cases he : en.id = t.id
      · by_cases hr : en.id ∈ rest.map (·.id)
        · have hi : tagDiscarded (tagDiscarded en.tag) = tagDiscarded en.tag := by
            cases en.tag <;> rfl
          simp_all
        · simp_all
      · simp [Function.comp, he]
    · next h =>
      dsimp only
      congr 1
      apply List.map_congr_left
      intro en _
      by_cases he : en.id = t.id
      · have : ¬ en.id.lane = y := by rw [he]; exact fun e => h e.symm
        simp [this]
      · simp [he]

/-- Closed notices retag the entries of the tokens whose spans are named (R101). -/
theorem laneOf_noticeClosed (sps : List Span) (y : Lane) (s : State) :
    laneOf y (noticeClosed sps s) =
      { laneOf y s with stack := (laneOf y s).stack.map fun en =>
          if en.id ∈ sps.map (·.id) ∧ en.id.lane = y then { en with tag := tagClosed en.tag }
          else en } := by
  induction sps generalizing s with
  | nil => simp [noticeClosed]
  | cons t rest ih =>
    rw [noticeClosed, ih, laneOf_notice]
    split
    · next h =>
      subst h
      simp only [retag, List.map_map]
      congr 1
      apply List.map_congr_left
      intro en _
      by_cases he : en.id = t.id
      · by_cases hr : en.id ∈ rest.map (·.id)
        · have hi : tagClosed (tagClosed en.tag) = tagClosed en.tag := by
            cases en.tag <;> rfl
          simp_all
        · simp_all
      · simp [Function.comp, he]
    · next h =>
      dsimp only
      congr 1
      apply List.map_congr_left
      intro en _
      by_cases he : en.id = t.id
      · have : ¬ en.id.lane = y := by rw [he]; exact fun e => h e.symm
        simp [this]
      · simp [he]

/-! ### The cell queue -/

/-- A closed row has no span and its cursor at 0; layout, cells and groups stay (R79). -/
@[simp] theorem closeRow_composer (s : State) :
    (closeRow s).composer = { s.composer with spans := [], cursor := 0 } := by
  simp [closeRow]

theorem takeGroupCell_cells (k : Nat) (s : State) :
    (takeGroupCell k s).composer.cells = s.composer.cells := by
  unfold takeGroupCell completeGroup
  (repeat' first | split | dsimp only) <;> simp [measureLateness]

/-- Taken cells leave from the front, in order (R77). -/
theorem takeCells_cells (n : Nat) (s : State) :
    (takeCells n s).composer.cells = s.composer.cells.drop n := by
  induction n generalizing s with
  | zero => rfl
  | succ n ih =>
    unfold takeCells
    split
    · next h => simp [h]
    · next c rest h =>
      dsimp only
      rw [ih, h, List.drop_succ_cons]
      split
      · rw [takeGroupCell_cells]
      · rfl

/-- The offered view has eight words (R118). -/
theorem offeredView_length (s : State) : (offeredView s).length = 8 := by
  simp [offeredView, viewCells, viewCount]
  omega

/-! ### Accesses -/

/-- Every write access puts its word into the SRAM (R179). -/
theorem busWrite_sram (q : Requester) (ma : BitVec 20) (w : Word) (s : State) :
    (busWrite q ma w s).sram = Memory.write s.sram ma.toNat w := by
  unfold busWrite
  dsimp only
  (repeat' split) <;> simp [passWrite]

/-- After a write access every address reads as before but the one written (R179). -/
theorem read_busWrite (q : Requester) (ma : BitVec 20) (w : Word) (s : State) (a : Nat)
    (h : s.sram.wf = true) :
    Memory.read (busWrite q ma w s).sram a =
      if a = ma.toNat then w else Memory.read s.sram a := by
  rw [busWrite_sram, Memory.read_write h]

/-! ### Directives -/

/-- The end of a directive overwrites the last-outcome record (R148). -/
theorem finishDirective_lastOutcome (code : BitVec 5) (tag : Byte) (r : State × Result) :
    (finishDirective code tag r).lastOutcome =
      { tag := tag, code := code, result := r.2, stamp := r.1.timebase.e } := by
  unfold finishDirective settleOutcome
  rcases r with ⟨s, o⟩
  cases o <;> simp

end Sys2Proof.Machine
end

