-- ==== Sys2Proof/WellFormed.lean ====
section
/-! DEFINITION. Which commands an event of the hardware can carry: the limits that the operands'
types do not already state. -/

namespace Sys2Proof

/-- The character words a WORD record of this length has (R20). -/
def characterWords (length : BitVec 6) : Nat := (length.toNat + 1) / 2

/-- A record's parameter count field has three bits, so at most 7 words follow a header (R183). -/
def paramsFit (params : List Word) : Bool := params.length ≤ 7

/-- A kind field that is none of WORD, SPEAKER, BREAK and CORRECT (R183). -/
def kindUnknown (kind : BitVec 4) : Bool := kind == 0 || 5 ≤ kind.toNat

/-- A directive code that names no directive (R183). -/
def codeUndefined (code : BitVec 5) : Bool := code == 0 || 0x14 ≤ code.toNat

/-- A command whose operands an event of the hardware can carry. -/
def Instr.wellFormed : Instr → Bool
  | .resetAssert => true
  | .resetRelease _ _ => true
  | .fpEdge _ _ => true
  | .freewheelDeadline _ => true
  | .nextPulse _ => true
  | .timecodeWord _ _ => true
  | .slewTick => true
  | .recordStall _ => true
  | .passTimerExpiry => true
  | .cueFire => true
  | .ringWrite _ _ => true
  | .wordRecord _ _ _ length chars => chars.length == characterWords length
  | .speakerRecord _ _ _ => true
  | .breakRecord _ _ _ => true
  | .unknownKind _ kind => kindUnknown kind
  | .correct _ _ => true
  | .passedWrite _ _ _ => true
  | .take _ _ => true
  | .reread _ _ => true
  | .attentionSummaryRead _ => true
  | .latchedLowRead _ _ => true
  | .contextPortRead _ => true
  | .restorePortWrite _ _ => true
  | .delay _ params => paramsFit params
  | .lag _ params => paramsFit params
  | .lead _ params => paramsFit params
  | .stale _ params => paramsFit params
  | .slew _ params => paramsFit params
  | .layout _ params => paramsFit params
  | .clear _ params => paramsFit params
  | .handoff _ params => paramsFit params
  | .flush _ params => paramsFit params
  | .hold _ params => paramsFit params
  | .resume _ params => paramsFit params
  | .snapshot _ params => paramsFit params
  | .restoreOpen _ params => paramsFit params
  | .restoreAbandon _ params => paramsFit params
  | .restoreCommit _ params => paramsFit params
  | .cue _ params => paramsFit params
  | .uncue _ params => paramsFit params
  | .zeroCounts _ params => paramsFit params
  | .restart _ params => paramsFit params
  | .unknownDirective code _ params => codeUndefined code && paramsFit params

end Sys2Proof
end

