-- ==== Sys2Proof/Tests/Slice0.lean ====
section
/-! SUPPORT. Tests. The first part refuses ill-formed commands; the second runs one command each on a
small state, with values worked out in the spec (each test names where); the third shows, for every
statement with hypotheses, a state and operands that meet them, at the boundaries of their ranges. -/

namespace Sys2Proof.Tests

open Sys2Proof Sys2Proof.Machine Sys2Proof.Safety Sys2Proof.Expect

/-! ### Ill-formed commands -/

theorem test_wellFormed_wordRecord_chars :
    (Instr.wordRecord .a false false 3 [0x6162]).wellFormed = false ∧
    (Instr.wordRecord .a false false 3 [0x6162, 0x6300]).wellFormed = true := by decide

theorem test_wellFormed_eight_params :
    (Instr.delay 0 [0, 0, 0, 0, 0, 0, 0, 0]).wellFormed = false ∧
    (Instr.cue 0 [0, 0, 0, 0, 0, 0, 0, 0]).wellFormed = false ∧
    (Instr.cue 0 [0, 0, 0, 0, 3, 0, 0]).wellFormed = true := by decide

theorem test_wellFormed_unknownKind :
    (Instr.unknownKind .a 4).wellFormed = false ∧ (Instr.unknownKind .a 5).wellFormed = true ∧
    (Instr.unknownKind .b 0).wellFormed = true := by decide

theorem test_wellFormed_unknownDirective :
    (Instr.unknownDirective 0x13 0 []).wellFormed = false ∧
    (Instr.unknownDirective 0x14 0 []).wellFormed = true ∧
    (Instr.unknownDirective 0 0 [0, 0, 0, 0, 0, 0, 0, 0]).wellFormed = false := by decide

/-! ### Small states -/

/-- The state after a command. -/
def go (c : Instr) (s : State) : State :=
  match exec c s with
  | .next t => t
  | .fault _ => s
  | .refused _ => s

/-- The order of reactions the tests use. -/
def order : FrameOrder :=
  { timer := .afterRelease, cuesFirst := 0, cuesSecond := 0, cuesThird := 0 }

/-- LOCKED at E, the last edge at moment 0 and the deadline 60 ms later (25 fps). -/
def live (e : Frame) : State :=
  { State.reset with timebase :=
    { Timebase.reset with state := .locked, deadline := some 1620000, e := e } }

/-- FREEWHEEL since 60 ms, the next pulse at 100 ms. -/
def freewheeling : State :=
  { State.reset with timebase := { Timebase.reset with
      state := .freewheel, now := 1620000, lastInternal := some 1620000,
      nextPulse := some 2700000, e := 1001 } }

/-- Timecode known, with this N. -/
def knowing (n : Nat) (s : State) : State :=
  { s with timebase := { s.timebase with known := true, n := n, epoch := 1 } }

/-- HELD. -/
def inHold (s : State) : State := { s with service := .held }

/-- A WORD of lane A. -/
def wordA (serial : BitVec 12) (text : List Byte) (speech arrival : Frame) : Token :=
  { id := ⟨.a, serial⟩, kind := .word, sentEnd := false, attach := false, text := text,
    arrival := arrival, speech := speech }

/-- A WORD of lane B. -/
def wordB (serial : BitVec 12) (text : List Byte) (speech arrival : Frame) : Token :=
  { wordA serial text speech arrival with id := ⟨.b, serial⟩ }

/-- The 32 bits of a timecode word, first bit first. -/
def bitsOf (w : BitVec 32) : List Bool := (List.range 32).map fun i => w.getLsbD (31 - i)

/-- A timecode word of a label, with user bits. -/
def labelWord (h m s f user : Nat) : BitVec 32 :=
  BitVec.ofNat 32 (h * 2 ^ 27 + m * 2 ^ 21 + s * 2 ^ 15 + f * 2 ^ 10 + user)

/-- The answer on the bus. -/
def answerOf (s : State) : Option Word :=
  match s.busOut with
  | .answered w => some w
  | _ => none

/-! ### Reset, reference and timecode -/

/-- R8: the pending word is absent; R180: ALERT is released. -/
theorem test_resetAssert_gives_up_word :
    let s := { live 5 with
      attention := 1, timebase := { (live 5).timebase with pendingWord := some 7 } }
    (go .resetAssert s).timebase.pendingWord = none ∧ alertLow s = true ∧
      alertLow (go .resetAssert s) = false := by decide

/-- R90: the check word of the first block. -/
theorem test_resetRelease_first_block :
    (go (.take .inserter 0) (go (.resetRelease 3 2) (live 9))).emission.takenBlock =
      [0x0400, 0x60F3, 0x7160, 0, 0, 0, 0, 0x29AD] := by decide

/-- 1.11: the edge at 40 ms opens E = 1001 with the deadline at 100 ms. -/
theorem test_fpEdge_locked :
    let t := go (.fpEdge 1080000 order) (live 1000)
    t.timebase.e = 1001 ∧ t.timebase.deadline = some 2700000 := by decide

/-- 1.11: with no edge for 112 ms, the deadline at 60 ms and the pulse at 100 ms come first, and the
edge is absorbed; the deadline stands at 172 ms. -/
theorem test_fpEdge_absorbed :
    let t := go (.fpEdge 3024000 order) (live 1000)
    t.timebase.e = 1002 ∧ t.timebase.state = .locked ∧ t.timebase.deadline = some 4644000 ∧
      t.counters.freewheelEntries = 1 := by decide +kernel

/-- 1.11: 60 ms. -/
theorem test_freewheelDeadline :
    let t := go (.freewheelDeadline order) (live 1000)
    t.timebase.e = 1001 ∧ t.timebase.nextPulse = some 2700000 ∧ t.attention = 0x10 := by decide

/-- 1.11: 100 ms. -/
theorem test_nextPulse :
    let t := go (.nextPulse order) freewheeling
    t.timebase.e = 1002 ∧ t.timebase.nextPulse = some 3780000 := by decide

/-- 1.12: the word of E = 2 makes a JUMP to N = 899,960. -/
theorem test_timecodeWord_jump :
    let t := go (.fpEdge 9 order)
      (go (.timecodeWord (bitsOf (labelWord 9 59 58 10 0x3FF)) true) (live 1))
    t.timebase.n = 899960 ∧ t.timebase.cls = .jump ∧ t.timebase.epoch = 1 ∧
      t.counters.timecodeJump = 1 := by decide +kernel

/-- R8: 33 bits are discarded. -/
theorem test_timecodeWord_too_long :
    (go (.timecodeWord (true :: bitsOf 0) true) (live 1)).timebase.pendingWord = none := by decide

/-- 1.13: the drop-frame table. -/
theorem test_dropFrame_numbers :
    frameNumber .fps30drop ⟨10, 9, 59, 29⟩ = 1096901 ∧
    frameNumber .fps30drop ⟨10, 10, 0, 0⟩ = 1096902 ∧
    frameNumber .fps30drop ⟨10, 11, 0, 2⟩ = 1098702 ∧
    frameNumber .fps30drop ⟨23, 59, 59, 29⟩ = 2589407 ∧
    labelOf .fps30drop 1098702 = ⟨10, 11, 0, 2⟩ ∧
    validLabel .fps30drop ⟨10, 11, 0, 1⟩ = false := by decide

/-! ### Parts of a frame event -/

/-- Case 3 of 3.10: the tick at 20,012. -/
theorem test_slewTick :
    let s := { live 20012 with
      timebase := { (live 20012).timebase with ticker := 11 }
      retiming := { Retiming.reset with delayTarget := 150, delayEff := 125 } }
    (go .slewTick s).retiming.delayEff = 126 ∧ (go .slewTick s).timebase.ticker = 0 := by decide

/-- 2.12: the directive header of frame 5,000 stalls at 5,002. -/
theorem test_recordStall :
    let s := { live 5002 with directiveParser :=
      { expected := 257, staging := some ⟨0x1900, [], 1, 5000⟩ } }
    let t := go (.recordStall .directive) s
    t.directiveParser = { expected := 257, staging := none } ∧ t.counters.stalled = 1 ∧
      t.attention = 0x04 := by decide

/-- 8.8: at 91,302 the timer runs out; step 1 discards 3 tokens and step 2 the one whose S precedes
S_tail, and lane B's other two wait behind the full schedule. -/
theorem test_passTimerExpiry :
    let a (n : BitVec 12) := wordA n [0x61] 91201 91300
    let s := { inHold (live 91302) with
      schedule := List.replicate 96 (wordA 9 [0x61] 91200 91290)
      retiming := { Retiming.reset with speechTail := some 91200 }
      laneA := { LaneState.reset with queue := [a 1, a 2, a 3] }
      laneB := { LaneState.reset with queue :=
        [wordB 1 [0x61] 91190 91300, wordB 2 [0x61] 91205 91300, wordB 3 [0x61] 91210 91300] }
      floor := { state := .passingAB, timer := 1 } }
    let t := go .passTimerExpiry s
    t.floor = { state := .floorB, timer := 0 } ∧ t.counters.trimmed = 4 ∧
      t.laneB.queue.length = 2 ∧ t.laneA.queue = [] := by decide

/-- R157: HOLD and RESUME of one frame, in arming order: the first fired leaves HELD. -/
theorem test_cueFire :
    let s := { knowing 500 (live 9) with cues :=
      [⟨1, 501, 1, .clear⟩, ⟨2, 500, 1, .hold⟩, ⟨3, 500, 1, .resume⟩] }
    let t := go .cueFire s
    t.service = .held ∧ t.cues = [⟨1, 501, 1, .clear⟩, ⟨3, 500, 1, .resume⟩] ∧
      t.counters.cuesFired = 1 ∧ t.lastOutcome = s.lastOutcome := by decide

/-! ### Rings and records -/

/-- 2.11: write 4 at ring offset 0 commits "budget" with serial 17. -/
theorem test_ringWrite_commits :
    let s := { live 20000 with laneA := { LaneState.reset with
      nextSerial := 17
      parser := { expected := 0, staging := some ⟨0x1006, [0x6275, 0x6467], 1, 20000⟩ } } }
    let t := go (.ringWrite 0 0x6574) s
    t.schedule = [wordA 17 [0x62, 0x75, 0x64, 0x67, 0x65, 0x74] 20000 20000] ∧
      t.laneA.nextSerial = 18 ∧ t.laneA.stack = [⟨.pending, ⟨.a, 17⟩⟩] ∧
      t.laneA.parser = { expected := 1, staging := none } := by decide

/-- 2.11: write 6 at ring offset 64 is a discontinuity, taken as a header there. -/
theorem test_ringWrite_discontinuity :
    let s := { live 20000 with laneA := { LaneState.reset with
      parser := { expected := 2, staging := none } } }
    let t := go (.ringWrite 64 0x1004) s
    t.laneA.parser = { expected := 65, staging := some ⟨0x1004, [], 2, 20000⟩ } ∧
      t.counters.discontinuities = 1 ∧ t.attention = 0x02 := by decide

/-- Case 1 of 3.10: S is 9,925 and the due 10,053. -/
theorem test_wordRecord_stamp :
    let s := { live 10000 with
      laneA := { LaneState.reset with lagEff := 75, speechLast := some 9920 }
      retiming := { Retiming.reset with delayEff := 125 } }
    let t := go (.wordRecord .a false false 10 [0x7061, 0x726C, 0x6961, 0x6D65, 0x6E74]) s
    t.laneA.speechLast = some 9925 ∧ t.schedule.map (fun k => tokenDue k t) = [10053] ∧
      t.schedule.map sendSpan = [2] := by decide

/-- R27: a cut to 32 characters and a blot for each character outside the accepted set. -/
theorem test_wordRecord_text :
    let t := go (.wordRecord .a false false 33 (0x7F41 :: List.replicate 16 0x4242)) (live 1)
    t.counters.truncated = 1 ∧ t.counters.substituted = 1 ∧
      t.schedule.map (fun k => k.text.take 2) = [[0x7F, 0x41]] ∧
      t.schedule.map (fun k => k.text.length) = [32] := by decide

/-- R31, R95: a SPEAKER of the standby lane waits and is pushed. -/
theorem test_speakerRecord :
    let t := go (.speakerRecord .b true false) (live 7)
    t.laneB.queue.map (·.kind) = [.speaker] ∧ t.laneB.stack = [⟨.waiting, ⟨.b, 0⟩⟩] ∧
      t.schedule = [] := by decide

/-- R95: a BREAK is not pushed. -/
theorem test_breakRecord :
    let t := go (.breakRecord .a false false) (live 7)
    t.schedule.map (·.kind) = [.paragraph] ∧ t.laneA.stack = [] := by decide

/-- R25: an unknown kind is counted and raises nothing. -/
theorem test_unknownKind :
    let t := go (.unknownKind .b 9) (live 7)
    t.counters.unknownKind = 1 ∧ t.attention = 0 := by decide

/-- R107, R108: a SENDING word of 8 columns with 6 taken is undone by ERASE(6). -/
theorem test_correct_sending :
    let s := { live 8040 with
      laneA := { LaneState.reset with stack := [⟨.sending, ⟨.a, 4⟩⟩] }
      composer := { Composer.reset with
        cells := [.char 0x72, .char 0x79], cursor := 11
        groups := [⟨⟨.a, 4⟩, some (8000, 8000), 8, 6, 6⟩]
        spans := [⟨⟨.a, 3⟩, 0, 3⟩, ⟨⟨.a, 4⟩, 3, 8⟩] } }
    let t := go (.correct .a 1) s
    t.composer.cells = [.erase 6] ∧ t.composer.cursor = 3 ∧
      t.composer.spans = [⟨⟨.a, 3⟩, 0, 3⟩] ∧ t.composer.groups = [] := by decide

/-- R103: a length above the depth counts one underflow. -/
theorem test_correct_underflow :
    let s := { live 1 with laneB := { LaneState.reset with stack := [⟨.dropped, ⟨.b, 4⟩⟩] } }
    let t := go (.correct .b 63) s
    t.counters.underflows = 1 ∧ t.laneB.stack = [] := by decide

/-! ### The memory port -/

/-- R178, R179: the inserter's write to a ring reaches the SRAM and no parser. -/
theorem test_passedWrite :
    let t := go (.passedWrite .inserter 0 0x2000) (live 1)
    Memory.read t.sram 0 = 0x2000 ∧ t.laneA = LaneState.reset := by decide

/-- 11.8: the header of sequence 10, five cells, CARRY set and E mod 64 = 10 is 0xAA4A; 7.9: "is" is
taken whole. -/
theorem test_take :
    let s := { live 202 with
      laneA := { LaneState.reset with stack := [⟨.composed, ⟨.a, 2⟩⟩, ⟨.sending, ⟨.a, 1⟩⟩] }
      composer := { Composer.reset with
        cells := [.char 0x65, .char 0x72, .char 0x20, .char 0x69, .char 0x73]
        groups := [⟨⟨.a, 1⟩, some (198, 190), 8, 6, 6⟩, ⟨⟨.a, 2⟩, some (199, 190), 3, 0, 0⟩] }
      emission := { Emission.reset with blockSeq := 10, carry := true } }
    let t := go (.take .inserter 0) s
    answerOf t = some 0xAA4A ∧ t.laneA.stack = [⟨.shown, ⟨.a, 2⟩⟩, ⟨.shown, ⟨.a, 1⟩⟩] ∧
      t.counters.lateTokens = 1 ∧ t.retiming.maxLateness = 1 ∧ t.composer.groups = [] ∧
      t.emission.blockSeq = 11 := by decide

/-- R122: a second read of word 0 in the frame is a reread. -/
theorem test_reread :
    let s := go (.take .inserter 0) (live 64)
    let t := go (.reread .inserter 0) s
    answerOf t = some 0x0400 ∧ t.counters.rereads = 1 ∧ t.composer.cells = [] := by decide

/-- R181: the read returns the bits and clears them. -/
theorem test_attentionSummaryRead :
    let s := { live 1 with attention := 0x21 }
    answerOf (go (.attentionSummaryRead .processor) s) = some 0x0021 ∧
      (go (.attentionSummaryRead .processor) s).attention = 0 ∧
      (go (.attentionSummaryRead .inserter) s).attention = 0x21 := by decide

/-- R182: E = 131,075 reads low 3, then high 2. -/
theorem test_latchedLowRead :
    let t := go (.latchedLowRead .processor 2) (live 131075)
    answerOf t = some 3 ∧ answerOf (go (.latchedLowRead .processor 3) t) = some 2 := by decide

/-- R182: word 1 in FREEWHEEL, HELD, PASSING_BA, FILLING. -/
theorem test_latchedLowRead_states :
    let s := { inHold freewheeling with
      floor := { state := .passingBA, timer := 3 }
      image := { ImageBuffer.clear with state := .filling } }
    answerOf (go (.latchedLowRead .processor 1) s) = some 0x2312 := by decide

/-- R170: the end word, then the image again. -/
theorem test_contextPortRead :
    let s := { inHold (live 1) with image := ⟨.snapshot, [0x4A31, 2], 2, false⟩ }
    let t := go (.contextPortRead .processor) s
    answerOf t = some 0xFFFF ∧
      answerOf (go (.contextPortRead .processor) t) = some 0x4A31 ∧
      answerOf (go (.contextPortRead .processor) (live 1)) = some 0xFFFE := by decide

/-- R171: collected while FILLING, and the SRAM receives the write too. -/
theorem test_restorePortWrite :
    let s := { inHold (live 1) with image := { ImageBuffer.clear with state := .filling } }
    let t := go (.restorePortWrite .processor 0x4A31) s
    t.image.words = [0x4A31] ∧ Memory.read t.sram 0x2451 = 0x4A31 ∧
      (go (.restorePortWrite .inserter 0x4A31) s).image.words = [] := by decide

/-! ### Directives -/

/-- Case 3 of 3.10: DELAY 400. -/
theorem test_delay :
    let t := go (.delay 9 [400]) (live 20000)
    t.retiming.delayTarget = 300 ∧ t.counters.clamped = 1 ∧
      t.lastOutcome = ⟨9, 0x01, .clamped, 20000⟩ := by decide

/-- R39. -/
theorem test_lag :
    (go (.lag 0 [1, 80]) (live 1)).laneB.lagTarget = 80 ∧
    (go (.lag 0 [2, 80]) (live 1)).lastOutcome.result = .range := by decide

/-- 9.6: tags 0x01 and 0x02. -/
theorem test_lead :
    (go (.lead 1 [5]) (live 131075)).retiming.lead = 5 ∧
    (go (.lead 2 [5, 5]) (live 131075)).lastOutcome = ⟨2, 0x03, .malformed, 131075⟩ ∧
    (go (.lead 2 [5, 5]) (live 131075)).attention = 0x01 := by decide

/-- 9.6: tag 0x04. -/
theorem test_stale :
    (go (.stale 4 [10]) (live 131076)).retiming.horizon = 25 ∧
    (go (.stale 4 [10]) (live 131076)).lastOutcome.result = .clamped ∧
    (go (.stale 4 [501]) (live 131076)).retiming.horizon = 500 := by decide

/-- 9.6: tag 0x07; R16. -/
theorem test_slew :
    let s := { live 131079 with timebase := { (live 131079).timebase with ticker := 2 } }
    (go (.slew 7 [2]) s).lastOutcome.result = .range ∧
    (go (.slew 7 [2]) s).timebase.ticker = 2 ∧ (go (.slew 7 [0]) s).timebase.ticker = 0 := by decide

/-- R86, R73: the window must fit the grid. -/
theorem test_layout :
    (go (.layout 1 [2, 3, 5, 32]) (live 1)).lastOutcome.result = .range ∧
    (go (.layout 1 [3, 3, 26, 16]) (live 1)).composer.cells =
      [.placeRow 15 3, .placeCol 5 32, .placeRow 3 3, .placeCol 26 16] := by decide

/-- 5.12 and R88: of the queued cells the last PLACE pair stays, and BLANK joins. -/
theorem test_clear :
    let s := { live 1 with
      laneA := { LaneState.reset with stack := [⟨.composed, ⟨.a, 2⟩⟩, ⟨.shown, ⟨.a, 1⟩⟩] }
      composer := { Composer.reset with
        cells := [.placeRow 15 3, .placeCol 5 32, .roll, .char 0x20, .char 0x61], cursor := 3
        groups := [⟨⟨.a, 2⟩, none, 2, 0, 0⟩]
        spans := [⟨⟨.a, 1⟩, 0, 1⟩, ⟨⟨.a, 2⟩, 1, 2⟩] } }
    let t := go (.clear 1 []) s
    t.composer.cells = [.placeRow 15 3, .placeCol 5 32, .blank] ∧
      t.laneA.stack = [⟨.dropped, ⟨.a, 2⟩⟩, ⟨.closed, ⟨.a, 1⟩⟩] := by decide

/-- 8.9: HANDOFF(1, 400), then HANDOFF(1, 10), then HANDOFF(0, 999). -/
theorem test_handoff :
    let t := go (.handoff 1 [1, 400]) (live 1)
    t.floor = ⟨.passingAB, 250⟩ ∧ t.lastOutcome.result = .clamped ∧
      (go (.handoff 2 [1, 10]) t).lastOutcome.result = .busy ∧
      (go (.handoff 3 [0, 999]) t).floor = ⟨.floorA, 0⟩ := by decide

/-- 8.9: HANDOFF(1, 0) completes at once, and lane B's token is admitted. -/
theorem test_handoff_at_once :
    let s := { live 1 with laneB := { LaneState.reset with queue := [wordB 0 [0x61] 9 9] } }
    let t := go (.handoff 4 [1, 0]) s
    t.floor = ⟨.floorB, 0⟩ ∧ t.lastOutcome.result = .done ∧ t.laneB.queue = [] ∧
      t.schedule = [wordB 0 [0x61] 9 9] := by decide

/-- R143: the lane's queue and schedule entries go, uncounted. -/
theorem test_flush :
    let s := { live 1 with
      schedule := [wordA 0 [0x61] 5 5, wordB 0 [0x61] 6 6]
      laneA := { LaneState.reset with speechLast := some 5, stack := [⟨.pending, ⟨.a, 0⟩⟩] } }
    let t := go (.flush 1 [0]) s
    t.schedule = [wordB 0 [0x61] 6 6] ∧ t.laneA.stack = [⟨.dropped, ⟨.a, 0⟩⟩] ∧
      t.laneA.speechLast = none ∧ t.counters = s.counters := by decide

/-- R163. -/
theorem test_hold : (go (.hold 1 []) (live 1)).service = .held := by decide

/-- R164: RESUME in HELD and SNAPSHOT ends the readout; in FILLING it is refused. -/
theorem test_resume :
    let s := { inHold (live 1) with image := ⟨.snapshot, [1], 0, false⟩ }
    let u := { inHold (live 1) with image := ⟨.filling, [1], 0, false⟩ }
    (go (.resume 1 []) s).service = .run ∧ (go (.resume 1 []) s).image = ImageBuffer.clear ∧
      (go (.resume 1 []) u).lastOutcome.result = .state ∧ (go (.resume 1 []) u).image = u.image := by
  decide

/-- 11.11: E_snap, and words 14, 15 and 16 of the image. -/
theorem test_snapshot :
    let s := { inHold (live 131080) with
      laneA := { LaneState.reset with speechLast := some 1 }
      laneB := { LaneState.reset with speechLast := some 1 }
      retiming := { Retiming.reset with speechTail := some 1 } }
    let ws := (go (.snapshot 1 []) s).image.words
    ws.take 4 = [0x4A31, 0x001D, 0x0008, 0x0002] ∧ (ws.drop 14).take 3 = [0x06FA, 0xF305, 0x2007] ∧
      wordSum ws = 0 := by decide

/-- R171: in every buffer state of HELD. -/
theorem test_restoreOpen :
    (go (.restoreOpen 1 []) (live 1)).lastOutcome.result = .state ∧
    (go (.restoreOpen 1 []) { inHold (live 1) with image := ⟨.filling, [7], 0, true⟩ }).image =
      ⟨.filling, [], 0, false⟩ := by decide

/-- R172. -/
theorem test_restoreAbandon :
    (go (.restoreAbandon 1 []) { inHold (live 1) with image := ⟨.filling, [7], 0, true⟩ }).image =
      ImageBuffer.clear ∧
    (go (.restoreAbandon 1 []) (inHold (live 1))).lastOutcome.result = .state := by decide

/-- R173: a short fill is BAD_IMAGE, and raises both causes. -/
theorem test_restoreCommit_bad :
    let t := go (.restoreCommit 1 []) { inHold (live 1) with image := ⟨.filling, [7], 0, false⟩ }
    t.lastOutcome.result = .badImage ∧ t.attention = 0x41 ∧ t.counters.refused = 1 ∧
      t.image = ImageBuffer.clear := by decide

/-- R174: a schedule entry 17 frames short of its due stays so on another card at another E. -/
theorem test_restoreCommit_rebases :
    let i := { inHold (live 100) with
      schedule := [wordA 3 [0x61] 114 90]
      retiming := { Retiming.reset with speechTail := some 114 } }
    let s := { inHold (live 5000) with
      image := ⟨.filling, (go (.snapshot 1 []) i).image.words, 0, false⟩ }
    let t := go (.restoreCommit 2 []) s
    t.lastOutcome.result = .done ∧ t.schedule.map (fun k => tokenDue k t) = [5017] ∧
      t.retiming.speechTail = some 5014 := by decide

/-- R155: half the day ahead is armed, one frame more is PAST. -/
theorem test_cue :
    (go (.cue 5 [12, 0, 0, 0, 0]) (knowing 0 (live 1))).cues = [⟨5, 1080000, 1, .hold⟩] ∧
    (go (.cue 5 [12, 0, 0, 1, 0]) (knowing 0 (live 1))).lastOutcome.result = .past ∧
    (go (.cue 5 [0, 0, 0, 5, 3, 1]) (knowing 0 (live 1))).lastOutcome.result = .malformed := by
  decide

/-- R160. -/
theorem test_uncue :
    let s := { knowing 0 (live 1) with cues := [⟨5, 9, 1, .hold⟩, ⟨6, 9, 1, .hold⟩, ⟨5, 8, 1, .clear⟩] }
    (go (.uncue 6 [5]) s).cues = [⟨6, 9, 1, .hold⟩] ∧
      (go (.uncue 6 [256]) s).lastOutcome.result = .range := by decide

/-- 9.6: tag 0x06 clears the counters and leaves the attention bits. -/
theorem test_zeroCounts :
    let s := { live 131078 with
      counters := { Counters.zero with refused := 3, clamped := 1 }, attention := 1 }
    (go (.zeroCounts 6 []) s).counters = Counters.zero ∧ (go (.zeroCounts 6 []) s).attention = 1 := by
  decide

/-- R151, R91. -/
theorem test_restart :
    let s := { inHold (live 1) with
      schedule := [wordA 0 [0x61] 5 5], floor := ⟨.passingBA, 9⟩
      laneA := { LaneState.reset with nextSerial := 4, parser := ⟨7, some ⟨0x1002, [], 1, 1⟩⟩ } }
    let t := go (.restart 1 []) s
    t.schedule = [] ∧ t.floor = ⟨.floorA, 0⟩ ∧ t.service = .run ∧
      t.laneA.parser = ⟨7, none⟩ ∧ t.composer.cells = [.placeRow 15 3, .placeCol 5 32] := by decide

/-- 9.6: tag 0x03. -/
theorem test_unknownDirective :
    let t := go (.unknownDirective 0x1F 3 [1, 2, 3]) (live 131076)
    t.lastOutcome = ⟨3, 0x1F, .unknown, 131076⟩ ∧ t.counters.refused = 1 := by decide

/-- An empty queue idles (log 1). -/
theorem test_step_idles : step State.reset = .next State.reset := by rfl

/-- The front command is carried out. -/
theorem test_step_front :
    step { State.reset with pending := [.hold 1 [], .resume 2 []] } =
      exec (.hold 1 []) { State.reset with pending := [.resume 2 []] } := by rfl

/-! ### Witnesses: the hypotheses of the statements are met -/

/-- A state with RESET low. -/
def lowered : State := { live 1 with resetLow := true }

/-- A pass from A with this timer. -/
def passing (timer : Nat) : State := { live 1 with floor := { state := .passingAB, timer := timer } }

theorem witness_StepRunsFrontCommand : State.reset.pending = [] := by decide

theorem witness_ResetLowOnlyPassesAccesses :
    lowered.resetLow = true ∧ isAccessOrReset .slewTick = false ∧
      isAccessOrReset (.restart 0 []) = false := by decide

theorem witness_ComposerAtRelease : (live 9).resetLow = false := by decide

theorem witness_RateSampledAtRelease :
    exec .slewTick (live 1) = .next (live 1) ∧ isRelease .slewTick = false := by
  exact ⟨rfl, rfl⟩

theorem witness_AbsentUntilFirstEdge :
    State.reset.timebase.state = .absent ∧ State.reset.resetLow = false ∧
      exec .slewTick State.reset = .next State.reset ∧ ofReference .slewTick = false ∧
      isRelease .slewTick = false ∧ State.reset.timebase.framing = none ∧
      (List.replicate 32 true).length = 32 := by
  exact ⟨rfl, rfl, rfl, rfl, rfl, rfl, rfl⟩

/-- An edge at the deadline itself, and one with no time since the last. -/
theorem witness_LockedEdgeIsFrameEvent :
    (live 1).resetLow = false ∧ (live 1).timebase.state = .locked ∧
      (live 1).timebase.deadline = some 1620000 ∧ (live 1).timebase.now + 1620000 ≤ 1620000 ∧
      (live 1).timebase.now + 0 ≤ 1620000 := by decide

theorem witness_DeadlineEntersFreewheel :
    (live 1).resetLow = false ∧ (live 1).timebase.state = .locked ∧
      (live 1).timebase.deadline = some 1620000 ∧
      (live 1).timebase.now + 1620000 = 1620000 := by decide

theorem witness_NextPulseKeepsFreewheel :
    freewheeling.resetLow = false ∧ freewheeling.timebase.state = .freewheel ∧
      freewheeling.timebase.nextPulse = some 2700000 := by decide

/-- One absorb window after the internal event, one clock less, and at the next pulse. -/
theorem witness_EdgeInFreewheelRelocks :
    freewheeling.timebase.lastInternal = some 1620000 ∧
      freewheeling.timebase.now + 1080000 ≤ 2700000 ∧
      1620000 + absorbWindow (rateOf freewheeling.rate) ≤ freewheeling.timebase.now + 540000 ∧
      freewheeling.timebase.now + 539999 <
        1620000 + absorbWindow (rateOf freewheeling.rate) := by decide

/-- An edge one clock after the deadline, and one clock after the pulse. -/
theorem witness_TimeRunsUpToAnEdge :
    (live 1).timebase.now ≤ 1620000 ∧ 1620000 < (live 1).timebase.now + 1620001 ∧
      freewheeling.timebase.now ≤ 2700000 ∧
      2700000 < freewheeling.timebase.now + 1080001 := by decide

theorem witness_FrameCountMovesOnlyAtFrameEvents :
    exec (.restart 0 []) (live 1) = .next (go (.restart 0 []) (live 1)) ∧
      ofReference (.restart 0 []) = false ∧ isRelease (.restart 0 []) = false := by
  exact ⟨rfl, rfl, rfl⟩

theorem witness_TimecodeReception :
    (live 1).resetLow = false ∧ ((live 1).timebase.framing.getD [] ++ bitsOf 5).length = 32 ∧
      ((live 1).timebase.framing.getD [] ++ true :: bitsOf 5).length ≠ 32 := by decide

/-- Two words that differ in their user bits alone. -/
theorem witness_ValidTimecodeWords :
    (labelWord 23 59 59 24 0).toNat / 1024 = (labelWord 23 59 59 24 1023).toNat / 1024 := by decide

theorem witness_FrameNumbersCountLabels :
    validLabel .fps25 ⟨23, 59, 59, 24⟩ = true ∧ validLabel .fps30 ⟨0, 0, 0, 0⟩ = true ∧
      validLabel .fps30drop ⟨0, 1, 0, 2⟩ = true ∧ 2589407 < dayLength .fps30drop := by decide

/-- The first edge; an edge at the deadline; edges at the absorb window and at the next pulse. -/
theorem witness_opensOneFrame_fpEdge :
    opensOneFrame (.fpEdge 7 order) State.reset ∧ opensOneFrame (.fpEdge 1620000 order) (live 1) ∧
      opensOneFrame (.fpEdge 540000 order) freewheeling ∧
      opensOneFrame (.fpEdge 1080000 order) freewheeling :=
  ⟨⟨rfl, .inl rfl⟩, ⟨rfl, .inr (.inl ⟨rfl, 1620000, rfl, by decide⟩)⟩,
   ⟨rfl, .inr (.inr ⟨rfl, 1620000, 2700000, rfl, rfl, by decide, by decide⟩)⟩,
   ⟨rfl, .inr (.inr ⟨rfl, 1620000, 2700000, rfl, rfl, by decide, by decide⟩)⟩⟩

/-- FrameEventClassifiesTimecode, FrameEventTicks, FrameEventStallsRecords, FrameEventClosesFrame and
FrameEventFiresDueCues ask for one frame event alone. -/
theorem witness_opensOneFrame_internal :
    opensOneFrame (.freewheelDeadline order) (live 1) ∧
      opensOneFrame (.nextPulse order) freewheeling :=
  ⟨⟨rfl, rfl, rfl⟩, ⟨rfl, rfl, rfl⟩⟩

/-- Due cues of every action but HANDOFF, one of them a clamp and one a refusal, with the order that
fires them last; and a due HANDOFF behind a cue that is not due. -/
theorem witness_FrameEventFiresDueCues :
    let cues : List Cue := [⟨1, 500, 1, .hold⟩, ⟨2, 500, 1, .delay 301⟩, ⟨3, 500, 1, .resume⟩]
    let s := { knowing 499 (live 9) with
      cues := cues, image := { ImageBuffer.clear with state := .filling } }
    let t := go (.freewheelDeadline order) s
    opensOneFrame (.freewheelDeadline order) s ∧ firesLast (.freewheelDeadline order) ∧
      firesLast (.fpEdge 7 order) ∧ firesLast (.nextPulse order) ∧
      s.cues.filter (fun q => !outlived t.timebase q && fires t.timebase q) = cues ∧
      (∀ q ∈ cues, isHandoff q = false) ∧ overTop ⟨2, 500, 1, .delay 301⟩ = true ∧
      overTop ⟨2, 500, 1, .delay 300⟩ = false ∧ s.image.state = .filling :=
  ⟨⟨rfl, rfl, rfl⟩, ⟨rfl, rfl, rfl⟩, ⟨rfl, rfl, rfl⟩, ⟨rfl, rfl, rfl⟩, by decide, by decide, by decide,
   by decide, rfl⟩

/-- R158: HOLD and DELAY 400 of one frame act in the frame event that makes them due. -/
theorem test_frame_event_fires :
    let s := { knowing 499 (live 9) with cues := [⟨1, 500, 1, .hold⟩, ⟨2, 500, 1, .delay 400⟩] }
    let t := go (.freewheelDeadline order) s
    t.service = .held ∧ t.retiming.delayTarget = 300 ∧ t.counters.clamped = 1 ∧
      t.counters.cuesFired = 2 ∧ t.cues = [] := by decide

/-- FrameEventTicks with a full ticker and no cue armed. -/
theorem witness_FrameEventTicks :
    let s := { live 1 with timebase := { (live 1).timebase with ticker := 11 } }
    opensOneFrame (.freewheelDeadline order) s ∧ s.cues = [] ∧ 12 ≤ s.timebase.ticker + 1 :=
  ⟨⟨rfl, rfl, rfl⟩, rfl, by decide⟩

/-- No pass, a pass in its last frame of wait, and one with two frames left, in RUN with no SENT_END
token and in HELD with one; the timer after the release pass, and before it. -/
theorem witness_FrameEventRunsPassTimer :
    let ending : State := { inHold (passing 2) with laneA := { LaneState.reset with
      queue := [{ wordA 0 [0x61] 1 1 with sentEnd := true }] } }
    opensOneFrame (.freewheelDeadline order) (passing 1) ∧ (passing 1).cues = [] ∧
      passTarget (live 1).floor.state = none ∧ passTarget (passing 1).floor.state ≠ none ∧
      (passing 1).floor.timer ≤ 1 ∧ 1 < (passing 2).floor.timer ∧
      (∀ k ∈ (laneOf .a (passing 2)).queue, k.sentEnd = false) ∧ (passing 2).service = .run ∧
      opensOneFrame (.freewheelDeadline order) ending ∧ ending.service = .held ∧
      1 < ending.floor.timer ∧ releasesFirst (.freewheelDeadline order) = true ∧
      releasesFirst (.freewheelDeadline { order with timer := .beforeSlew }) = false ∧
      (go (.freewheelDeadline order) (passing 1)).floor = ⟨.floorB, 0⟩ :=
  ⟨⟨rfl, rfl, rfl⟩, rfl, by decide, by decide, by decide, by decide, nofun, rfl,
    ⟨rfl, rfl, rfl⟩, rfl, by decide, rfl, rfl, by decide⟩

theorem witness_ReferenceEventsKeepTheRest :
    ofReference (.fpEdge 0 order) = true ∧ ofReference (.nextPulse order) = true ∧
      (live 1).cues = [] := by decide

/-- The slew tick of a ticker at 11, a record two frames old, a pass in its last frame. -/
theorem witness_PartsOfAFrameEventAlone :
    let s := { passing 1 with
      timebase := { (live 5002).timebase with ticker := 11 }
      directiveParser := { expected := 257, staging := some ⟨0x1900, [], 1, 5000⟩ } }
    s.resetLow = false ∧ s.timebase.state ≠ .absent ∧
      s.timebase.ticker + 1 = (match s.retiming.slewMode with | .normal => 12 | .brisk => 3) ∧
      (parserOf .directive s).staging = some ⟨0x1900, [], 1, 5000⟩ ∧
      s.timebase.e = 5000 + 2 ∧ passTarget s.floor.state ≠ none ∧ s.floor.timer ≤ 1 := by decide

/-- A due cue behind one that is not due. -/
theorem witness_CueFireActsAsDirective :
    let p : Cue := ⟨1, 501, 1, .clear⟩
    let q : Cue := ⟨2, 500, 1, .handoff 1 0⟩
    let s := { knowing 500 (live 9) with cues := [p, q, p] }
    s.resetLow = false ∧ s.timebase.state ≠ .absent ∧ s.cues = [p] ++ q :: [p] ∧
      (∀ r ∈ [p], fires s.timebase r = false) ∧ fires s.timebase q = true := by decide

/-- Rings at their last offset, in IDLE. -/
def atRingEnd : State :=
  { live 1 with
    laneB := { LaneState.reset with parser := { expected := 4095, staging := none } }
    directiveParser := { expected := 1023, staging := none } }

/-- In IDLE at the last offset of a ring, a header with no word to come and one with a word to come; a
write away from the expected offset. -/
theorem witness_RingWritesAreFollowed_header :
    atRingEnd.resetLow = false ∧ 4095 < ringWords (.lane .b) ∧ 1023 < ringWords .directive ∧
      (parserOf (.lane .b) atRingEnd).expected = 4095 ∧
      (parserOf (.lane .b) atRingEnd).staging = none ∧ wordsToCome (.lane .b) 0x2000 = 0 ∧
      0 < wordsToCome (.lane .b) 0x1001 ∧ (parserOf .directive atRingEnd).expected = 1023 ∧
      (parserOf .directive atRingEnd).expected ≠ 0 ∧
      (parserOf (.lane .a) atRingEnd).expected ≠ 1 := by decide

/-- In STAGING, with one word to come and with two. -/
theorem witness_RingWritesAreFollowed_body :
    let p : Parser := { expected := 1023, staging := some ⟨0x1900, [], 1, 5⟩ }
    let q : Parser := { expected := 4095, staging := some ⟨0x1003, [], 2, 5⟩ }
    let s := { live 5 with directiveParser := p, laneA := { LaneState.reset with parser := q } }
    s.resetLow = false ∧ (parserOf .directive s).expected = 1023 ∧
      (parserOf .directive s).staging = some ⟨0x1900, [], 1, 5⟩ ∧ 1 ≤ 1 ∧
      (parserOf (.lane .a) s).expected = 4095 ∧
      (parserOf (.lane .a) s).staging = some ⟨0x1003, [], 2, 5⟩ ∧ 1 < 2 := by decide

/-- The first and last addresses that no block watches, beside the restore port, and one outside. -/
theorem witness_WritesReachTheSram :
    SramHolds (live 1) ∧ (0x2400 ≤ (0x2400 : BitVec 20).toNat % 32768) ∧
      (0x2452 : BitVec 20).toNat % 32768 ≠ 0x2451 ∧
      (0x8000 : BitVec 20).toNat / 32768 ≠ (live 1).span.toNat := by decide

theorem witness_EmptyRecords :
    (live 1).resetLow = false ∧ (0x1FC0 : Word).toNat / 4096 = 1 ∧
      (0x4000 : Word).toNat / 4096 = 4 ∧ (0x1FC0 : Word).toNat % 64 = 0 ∧
      (laneOf .a (live 1)).parser.staging = none ∧
      (laneOf .b atRingEnd).parser.expected < 4096 := by decide

/-- A lane A queue of 48 tokens in the floor lane. -/
def fullQueue : State :=
  { live 1 with laneA := { LaneState.reset with
      queue := List.replicate 48 (wordA 0 [0x61] 1 1) } }

theorem witness_RecordsThatMakeNothing :
    let f := { inHold (live 1) with image := { ImageBuffer.clear with state := .filling } }
    f.resetLow = false ∧ f.image.state = .filling ∧ (1 : BitVec 6) ≠ 0 ∧
      fullQueue.resetLow = false ∧ fullQueue.image.state ≠ .filling ∧
      floorLane fullQueue.floor.state = .a ∧ 48 ≤ (laneOf .a fullQueue).queue.length ∧
      (makes (.speakerRecord .a false false) fullQueue).isSome = true ∧
      (makes (.wordRecord .a false false 1 [0x6100]) fullQueue).isSome = true := by decide

/-- A standby lane with 47 tokens and one with 48. -/
theorem witness_StandbyRecordsWait :
    let b (n : Nat) : State := { live 1 with laneB := { LaneState.reset with
      queue := List.replicate n (wordB 0 [0x61] 1 1) } }
    (b 47).resetLow = false ∧ (b 47).image.state ≠ .filling ∧
      floorLane (b 47).floor.state ≠ .b ∧ (laneOf .b (b 47)).queue.length < 48 ∧
      48 ≤ (laneOf .b (b 48)).queue.length ∧
      (laneOf .b (b 48)).queue =
        wordB 0 [0x61] 1 1 :: List.replicate 47 (wordB 0 [0x61] 1 1) ∧
      (wordB 0 [0x61] 1 1).id.lane = .b := by decide

/-- What the three token records make. -/
theorem witness_makes :
    makes (.breakRecord .b true false) (live 1) =
        some (.b, .paragraph, true, false, [], (live 1).counters) ∧
      makes (.speakerRecord .a true false) (live 1) =
        some (.a, .speaker, true, false, [], (live 1).counters) ∧
      makes (.wordRecord .a false true 1 [0x6100]) (live 1) =
        some (.a, .word, false, true, [0x61], (live 1).counters) :=
  ⟨rfl, rfl, rfl⟩

/-- An empty floor queue with 95 entries in the schedule, and one behind a full schedule; a SENT_END in
a pass. -/
theorem witness_FloorRecordsAreAdmitted :
    let s (n : Nat) : State := { passing 2 with
      schedule := List.replicate n (wordA 0 [0x61] 1 1) }
    (s 95).resetLow = false ∧ (s 95).image.state ≠ .filling ∧
      floorLane (s 95).floor.state = .a ∧ (laneOf .a (s 95)).queue = [] ∧
      (laneOf .a (s 95)).queue.length < 48 ∧ (s 95).schedule.length < 96 ∧
      96 ≤ (s 96).schedule.length ∧ passTarget (s 95).floor.state ≠ none := by decide

theorem witness_SerialsAreFree :
    (laneOf .a fullQueue).queue.length + fullQueue.schedule.length +
      fullQueue.composer.groups.length + fullQueue.composer.spans.length +
      (laneOf .a fullQueue).stack.length < 4096 ∧
    (0 : Nat) < (serialFor .a fullQueue - (laneOf .a fullQueue).nextSerial).toNat := by decide

/-- One entry of this tag on lane A's stack. -/
def stacked (t : Tag) : State :=
  { live 1 with laneA := { LaneState.reset with stack := [⟨t, ⟨.a, 4⟩⟩] } }

/-- An empty stack; one entry of each tag, none of them on the row. -/
theorem witness_CorrectPopsEntries :
    (live 1).resetLow = false ∧ (live 1).image.state ≠ .filling ∧
      (laneOf .a (live 1)).stack = [] ∧ (63 : BitVec 6) ≠ 0 ∧ 2 ≤ (2 : BitVec 6).toNat ∧
      (∀ t : Tag, (laneOf .a (stacked t)).stack = ⟨t, ⟨.a, 4⟩⟩ :: [] ∧
        (stacked t).composer.spans = [] ∧ (stacked t).image.state ≠ .filling) := by
  refine ⟨by decide, by decide, by decide, by decide, by decide, fun t => ⟨rfl, rfl, ?_⟩⟩
  cases t <;> decide

/-- The last span's token with a group record of 8 cells, 6 of them taken, and without one. -/
theorem witness_CorrectUndoesTheLastSpan :
    let sp : Span := ⟨⟨.a, 4⟩, 3, 8⟩
    let g : GroupRecord := ⟨⟨.a, 4⟩, some (8000, 8000), 8, 6, 6⟩
    let s : State := { stacked .sending with composer := { Composer.reset with
      cells := [.roll, .char 0x72, .char 0x79], cursor := 11, groups := [g]
      spans := [⟨⟨.a, 3⟩, 0, 3⟩, sp] } }
    let u : State := { stacked .shown with composer := { Composer.reset with
      cells := [], cursor := 11, spans := [⟨⟨.a, 3⟩, 0, 3⟩, sp] } }
    s.resetLow = false ∧ s.image.state ≠ .filling ∧
      (laneOf .a s).stack = ⟨.sending, ⟨.a, 4⟩⟩ :: [] ∧
      s.composer.spans = [⟨⟨.a, 3⟩, 0, 3⟩] ++ [sp] ∧ s.composer.groups = [] ++ g :: [] ∧
      s.composer.cells = [.roll] ++ [.char 0x72, .char 0x79] ++ [] ∧
      (([.roll] : List Cell).filter isGroupCell).length = 0 ∧
      (∀ c ∈ ([.char 0x72, .char 0x79] : List Cell), isGroupCell c = true) ∧
      ([.char 0x72, .char 0x79] : List Cell).length = g.composed - g.taken ∧
      (laneOf .a u).stack = ⟨.shown, ⟨.a, 4⟩⟩ :: [] ∧ u.composer.groups = [] ∧
      u.composer.spans = [⟨⟨.a, 3⟩, 0, 3⟩] ++ [sp] := by decide

/-- An empty queue, a schedule of 96, and a head with 95 entries ahead of it. -/
theorem witness_AdmissionRunsAdmitTheFloorLane :
    let s (n : Nat) : State := { fullQueue with schedule := List.replicate n (wordA 1 [0x61] 1 1) }
    (laneOf (floorLane (live 1).floor.state) (live 1)).queue = [] ∧ 96 ≤ (s 96).schedule.length ∧
      (laneOf (floorLane (s 95).floor.state) (s 95)).queue =
        wordA 0 [0x61] 1 1 :: List.replicate 47 (wordA 0 [0x61] 1 1) ∧
      (wordA 0 [0x61] 1 1).id.lane = floorLane (s 95).floor.state ∧
      (s 95).schedule.length < 96 := by decide

/-- Case 5 of 3.10, with due 30,000 and H 250: one schedule entry at this E. -/
def due30000 (e : Frame) : State :=
  { live e with schedule := [wordA 1 [0x61] 29997 29000] }

/-- A head 251 frames past its due is stale, one 250 past it is not and fits; with the queue at 55
cells and one character it does not fit; one frame before its due it is not ripe. -/
theorem witness_ReleasePassJudgesHeads :
    let t := wordA 1 [0x61] 29997 29000
    let ripe (s : State) : Bool :=
      (s.timebase.e - (dueOf t s - BitVec.ofNat 32 (spanOf t) + 1)).toNat < 2147483648
    let fits (n : Nat) : Bool := decide (1 + 8 ≤ 64 - n)
    (due30000 1).service = .run ∧ (due30000 1).schedule = t :: [] ∧
      (250 : Int) < ((30251 : Frame) - dueOf t (due30000 30251)).toInt ∧
      ¬ (250 : Int) < ((30250 : Frame) - dueOf t (due30000 30250)).toInt ∧
      ripe (due30000 30250) = true ∧ ripe (due30000 30000) = true ∧
      ripe (due30000 29999) = false ∧
      composition t 0 32 = (false, [.char 0x61]) ∧ fits 55 = true ∧ fits 56 = false ∧
      (inHold (live 1)).service = .held ∧ (live 1).schedule = [] := by decide

/-- A full schedule whose head becomes stale, with a SENT_END token behind it and two frames of wait
left: R141's second row with the release pass first. -/
def endingBehindFull : State :=
  { due30000 30250 with
    schedule := List.replicate 96 (wordA 1 [0x61] 29997 29000)
    laneA := { LaneState.reset with queue := [{ wordA 2 [0x62] 29998 29998 with sentEnd := true }] }
    floor := ⟨.passingAB, 2⟩ }

/-- No pass in progress, a pass in progress in RUN with each place of the timer, and HELD. -/
theorem witness_FrameEventMakesAReleasePass :
    opensOneFrame (.freewheelDeadline order) (due30000 29999) ∧ (due30000 29999).cues = [] ∧
      passTarget (due30000 29999).floor.state = none ∧
      opensOneFrame (.freewheelDeadline order) (inHold (live 1)) ∧
      (inHold (live 1)).service = .held ∧
      (∀ p, opensOneFrame (.freewheelDeadline { order with timer := p }) endingBehindFull) ∧
      endingBehindFull.cues = [] ∧ endingBehindFull.service = .run ∧
      passTarget endingBehindFull.floor.state ≠ none :=
  ⟨⟨rfl, rfl, rfl⟩, rfl, rfl, ⟨rfl, rfl, rfl⟩, rfl, fun _ => ⟨rfl, rfl, rfl⟩, rfl, rfl, by decide⟩

/-- No take since reset, and a take of an earlier frame. -/
theorem witness_TakeFreezesTheBlock :
    (live 1).resetLow = false ∧ (live 1).emission.take ≠ some (live 1).timebase.e ∧
      (go (.take .inserter 0) (live 1)).emission.take ≠ some (2 : Frame) := by decide

/-- A front group one cell short of its last, one two cells short, and a cell of no group. -/
theorem witness_TakenCellsAdvanceGroups :
    let c (taken : Nat) : Composer := { Composer.reset with
      cells := [.char 0x61], groups := [⟨⟨.a, 1⟩, none, 3, taken, taken⟩] }
    (c 2).cells = .char 0x61 :: [] ∧ isGroupCell (.char 0x61) = true ∧
      (c 2).groups = ⟨⟨.a, 1⟩, none, 3, 2, 2⟩ :: [] ∧ 3 ≤ 2 + 1 ∧ 1 + 1 < 3 ∧
      Composer.reset.cells = .placeRow 15 3 :: [.placeCol 5 32] ∧
      isGroupCell (.placeRow 15 3) = false := by decide

theorem witness_OtherEmissionReads :
    let s := go (.take .inserter 0) (live 1)
    s.resetLow = false ∧ s.emission.take = some s.timebase.e ∧
      (Requester.processor = .processor ∨ (0 : BitVec 3) ≠ 0) ∧
      (Requester.inserter = .processor ∨ (7 : BitVec 3) ≠ 0) := by decide

/-- ALERT with an attention bit set and with none. -/
theorem witness_ReportReads :
    (live 1).resetLow = false ∧ alertLow { live 1 with attention := 0x80 } = true ∧
      alertLow (live 1) = false := by decide

/-- The last word of an image, its end, and a buffer that is not in SNAPSHOT. -/
theorem witness_ContextPortReads :
    let b (p : Nat) : ImageBuffer := ⟨.snapshot, [1, 2], p, false⟩
    (b 1).state = .snapshot ∧ (b 1).readPos < (b 1).words.length ∧
      (b 2).readPos = (b 2).words.length ∧ (live 1).image.state ≠ .snapshot ∧
      (live 1).resetLow = false := by decide

/-- RUN, HELD, FILLING and a full buffer. -/
theorem witness_RestoreFill :
    (live 1).service = .run ∧ (inHold (live 1)).service = .held ∧
      (ImageBuffer.mk .filling [] 0 false).state = .filling ∧
      (inHold (live 1)).image.state ≠ .filling ∧ (List.replicate 10 (0 : Word)).length < 4608 ∧
      (inHold (live 1)).resetLow = false := by decide

theorem witness_RetimingDirectives : (live 1).resetLow = false := by decide
theorem witness_LayoutOpensAWindow : (live 1).resetLow = false := by decide

/-- A queue with no PLACE_COL, with a whole pair, and with a PLACE_COL alone. -/
theorem witness_ClearWipesTheWindow :
    (live 1).resetLow = false ∧ (groupIdsOf (live 1)).Nodup ∧
      (∀ c ∈ ([.roll] : List Cell), ¬ ∃ l w, c = .placeCol l w) ∧
      (live 1).composer.cells.filter (fun c => !isGroupCell c) =
        [] ++ .placeRow 15 3 :: .placeCol 5 32 :: [] ∧
      ([.roll, .placeCol 5 32] : List Cell) = [.roll] ++ .placeCol 5 32 :: [] ∧
      ∀ left b d, ([.roll] : List Cell) ≠ left ++ [.placeRow b d] := by
  refine ⟨by decide, by decide, by simp, by decide, by decide, ?_⟩
  intro left b d h
  have := congrArg List.getLast? h
  simp at this

theorem witness_HandoffCases : (live 1).resetLow = false := by decide

theorem witness_FlushHoldAndResume :
    (live 1).resetLow = false ∧ (inHold (live 1)).service = .held ∧
      (inHold (live 1)).image.state ≠ .filling ∧ (live 1).service = .run ∧
      (ImageBuffer.mk .filling [] 0 false).state = .filling := by decide

theorem witness_CueIsJudgedAndArmed :
    (live 1).resetLow = false ∧ ([1, 0] : List Word).length ≤ 2 ∧
      (knowing 2159999 (live 1)).timebase.n < dayLength (rateOf (live 1).rate) := by decide

theorem witness_UncueRetiresByTag : (live 1).resetLow = false := by decide
theorem witness_ZeroCountsClearsCounters : (live 1).resetLow = false := by decide
theorem witness_RestartEmptiesThePipeline : (live 1).resetLow = false := by decide

/-- The first undefined code above the table, and counts one off. -/
theorem witness_RefusedRecordsChangeNothing :
    (live 1).resetLow = false ∧ 0x14 ≤ (0x14 : BitVec 5).toNat ∧ (0 : BitVec 5).toNat = 0 ∧
      shape (.cue 1 [0, 0, 0, 0]) = some (0x10, 1, 4) ∧ 4 ∉ countsTaken 0x10 ∧
      shape (.restart 1 [0]) = some (0x13, 1, 1) ∧ 1 ∉ countsTaken 0x13 := by decide

theorem witness_SnapshotWritesAnImage :
    let s := inHold (live 1)
    s.resetLow = false ∧ s.service = .held ∧ s.image.state ≠ .filling ∧ SettingsHold s ∧
      FloorHolds s ∧ (live 1).service = .run := by decide

/-- A division with a token in each lane queue, a group of three cells with one taken, its span, an
entry on each stack and a cue. -/
def sound : Division :=
  { queueA := [[0x1001, 0x0002, 90, 0, 95, 0, 0x6200]], queueB := [[0x3000, 0x1005, 88, 0, 95, 0]]
    schedule := [], cells := [0x1072, 0x1079], groups := [(0x0000, 0x0301)], cursor := 3
    spans := [(0x0000, 3)], presence := 0x0101, entriesA := [0x0002], entriesB := [0xD004]
    cues := [[1, 500, 0, 0x0103, 4]] }

/-- The words of a division with these layout and width words, in their places, and a check word. -/
def wordsOf (g : Division) (layout width : Word) : List Word :=
  let pair (p : Word × Word) : List Word := [p.1, p.2]
  let two (high low : Nat) : Word := BitVec.ofNat 16 (256 * high + low)
  let body := g.records.flatten ++ g.cells ++ g.groups.flatMap pair ++ [g.cursor] ++
    g.spans.flatMap pair ++ [g.presence] ++ g.entriesA ++ g.entriesB ++ g.cues.flatten
  let unchecked : List Word := [0x4A31, BitVec.ofNat 16 (25 + body.length), 100, 0,
    two g.queueA.length g.queueB.length, two g.schedule.length g.cells.length,
    two g.groups.length g.spans.length, two g.cues.length 0, 0, 0, 0, 0, 0, 0, 0x06FA, layout, width,
    0, 0, 0, 0, 0, 0, 0] ++ body
  unchecked ++ [BitVec.ofNat 16 (65536 - (unchecked.map (·.toNat)).sum % 65536)]

/-- A part that is FILLING with these words. -/
def filledWith (ws : List Word) : State :=
  { inHold (live 5000) with image := ⟨.filling, ws, 0, false⟩ }

/-- Fills with each first fault of the header: a wrong format word, a wrong length, an overfill, 24
words, a sum that is not 0. -/
theorem witness_RestoreCommitChecksTheImage_header :
    let f (ws : List Word) (full : Bool) : ImageBuffer := ⟨.filling, ws, 0, full⟩
    ¬ headerPasses (f (0x4A30 :: (wordsOf sound 0xF305 0x2000).drop 1) false) ∧
      ¬ headerPasses (f ((wordsOf sound 0xF305 0x2000).set 1 9) false) ∧
      ¬ headerPasses (f (wordsOf sound 0xF305 0x2000) true) ∧
      ¬ headerPasses (f (0x4A31 :: 24 :: List.replicate 22 0) false) ∧
      ¬ headerPasses (f ((wordsOf sound 0xF305 0x2000).set 2 9) false) ∧
      (inHold (live 1)).image.state ≠ .filling ∧ (live 1).resetLow = false := by
  unfold headerPasses
  decide

/-- An image whose header counts a cue that its 27 words do not hold cannot be divided. -/
theorem witness_RestoreCommitChecksTheImage_extent (g : Division) :
    ¬ divides ((List.replicate 27 (0 : Word)).set 7 0x0100) g := by
  intro h
  obtain ⟨h1, ⟨-, -, -, -, -, -, h2⟩, -, -, -, h3⟩ := h
  have h1 := congrArg List.length h1
  have h4 : g.cues.length = 1 := h2
  obtain ⟨r, hr⟩ := List.length_eq_one_iff.mp h4
  have h5 : r.length = 5 := h3 r (by simp [hr])
  simp [hr, h5] at h1
  omega

/-- What a decided test says of each element of a list. -/
theorem every {α : Type} {p : α → Prop} [DecidablePred p] {l : List α}
    (h : (l.all fun x => decide (p x)) = true) : ∀ x ∈ l, p x := by simpa using h

/-- A division is that of its words when its counts fit their bytes and its records have their
lengths. -/
theorem wordsOf_divides (g : Division) (layout width : Word)
    (hn : g.queueA.length < 256 ∧ g.queueB.length < 256 ∧ g.schedule.length < 256 ∧
      g.cells.length < 256 ∧ g.groups.length < 256 ∧ g.spans.length < 256 ∧ g.cues.length < 256)
    (hr : (g.records.all fun r => r.length == 6 + (numberAt r 0 % 64 + 1) / 2) = true)
    (hp : g.entriesA.length = placesMarked (g.presence.toNat % 256) ∧
      g.entriesB.length = placesMarked (g.presence.toNat / 256))
    (hc : (g.cues.all fun r => r.length == 5) = true) : divides (wordsOf g layout width) g := by
  refine ⟨?_, ?_, by simpa using hr, hp.1, hp.2, by simpa using hc⟩
  · exact List.dropLast_concat
  · simp [wordsOf, numberAt]
    omega

/-- `sound` with nine cues. -/
def nineCues : Division := { sound with cues := List.replicate 9 [1, 500, 0, 0, 0] }

/-- `sound` with a record of unknown kind. -/
def oddKind : Division := { sound with queueB := [[0x4000, 0x1005, 88, 0, 95, 0]] }

/-- `sound` with a lane A token in lane B's queue. -/
def oddLane : Division := { sound with queueB := [[0x3000, 0x0005, 88, 0, 95, 0]] }

/-- `sound` with a token named twice. -/
def twice : Division :=
  { sound with queueB := [[0x3000, 0x1005, 88, 0, 95, 0], [0x3000, 0x1005, 88, 0, 95, 0]] }

/-- `sound` with a NULL in its cells. -/
def nullCell : Division := { sound with cells := [0x0000, 0x1079] }

/-- `sound` with no record for its group cells. -/
def loose : Division := { sound with groups := [] }

/-- `sound` with a cursor that is not the sum of the columns. -/
def tooWide : Division := { sound with cursor := 4 }

/-- `sound` with a last span that has no group, ahead of character cells. -/
def shownBehind : Division := { sound with spans := [(0x0009, 3)] }

/-- `sound` with an entry that waits for a token no record names. -/
def stray : Division := { sound with entriesA := [0x0008] }

/-- `sound` with an action above 4. -/
def oddAction : Division := { sound with cues := [[1, 500, 0, 0x0005, 4]] }

/-- Each of them can be divided, and a part can be FILLING with it. -/
theorem witness_RestoreCommitChecksTheImage_divides :
    ∀ g ∈ [sound, nineCues, oddKind, oddLane, twice, nullCell, loose, tooWide, shownBehind, stray,
      oddAction], divides (wordsOf g 0xF305 0x2000) g ∧ divides (wordsOf g 0xF305 0x0F00) g ∧
        (filledWith (wordsOf g 0xF305 0x2000)).image.state = .filling := by
  intro g hg
  simp only [List.mem_cons, List.not_mem_nil, or_false] at hg
  rcases hg with rfl | rfl | rfl | rfl | rfl | rfl | rfl | rfl | rfl | rfl | rfl <;>
    exact ⟨wordsOf_divides _ _ _ (by decide) (by decide) (by decide) (by decide),
      wordsOf_divides _ _ _ (by decide) (by decide) (by decide) (by decide), rfl⟩

/-- Each check of R173 behind Extent fails of one of them. -/
theorem witness_RestoreCommitChecksTheImage_fails :
    ¬ countsPass nineCues ∧ ¬ recordsPass oddKind ∧ ¬ recordsPass oddLane ∧ ¬ identitiesPass twice ∧
      ¬ layoutPasses (wordsOf sound 0xF305 0x0F00) ∧ ¬ cellsPass nullCell ∧ ¬ cellsPass loose ∧
      ¬ rowPasses (wordsOf tooWide 0xF305 0x2000) tooWide ∧ ¬ tailPasses shownBehind ∧
      ¬ stacksPass stray ∧ ¬ cuesPass oddAction := by
  refine ⟨by unfold countsPass; decide, fun h => ?_, fun h => ?_, by unfold identitiesPass; decide,
    by unfold layoutPasses; decide, fun h => ?_, fun h => ?_, fun h => ?_, fun h => ?_, fun h => ?_,
    fun h => ?_⟩
  · exact absurd (h.1 [0x4000, 0x1005, 88, 0, 95, 0] (by decide)) (by decide)
  · exact absurd (h.2.2 [0x3000, 0x0005, 88, 0, 95, 0] (by decide)) (by decide)
  · exact absurd (h.1 0x0000 (by decide)) (by decide)
  · have := h.2.2 (.char 0x72) (by decide)
    simp [isGroupCell] at this
  · exact absurd h.2.1 (by decide)
  · have := h (0x0009, 3) rfl
    rw [if_neg (by decide)] at this
    exact absurd (this.2 0x1072 (by decide)) (by decide)
  · exact absurd (h.2.2 0x0008 (by decide)) (by decide)
  · exact absurd (h [1, 500, 0, 0x0005, 4] (by decide)) (by decide)

/-- `sound` passes every check. -/
theorem witness_RestoreCommitChecksTheImage_passes :
    headerPasses (filledWith (wordsOf sound 0xF305 0x2000)).image ∧ countsPass sound ∧
      recordsPass sound ∧ identitiesPass sound ∧ layoutPasses (wordsOf sound 0xF305 0x2000) ∧
      cellsPass sound ∧ rowPasses (wordsOf sound 0xF305 0x2000) sound ∧ tailPasses sound ∧
      stacksPass sound ∧ cuesPass sound := by
  refine ⟨by unfold headerPasses; decide, by unfold countsPass; decide,
    ⟨every (by decide), every (by decide), every (by decide)⟩, by unfold identitiesPass; decide,
    by unfold layoutPasses; decide, ⟨every (by decide), every (by decide), ?_⟩,
    ⟨by decide, by decide, every (by decide)⟩, fun p hp => ?_,
    ⟨every (by decide), every (by decide), every (by decide)⟩, every (by decide)⟩
  · exact ⟨[], [.char 0x72, .char 0x79], [], by decide, by decide, by decide, by decide, by decide,
      by simp [runsStand]⟩
  · obtain rfl : ((0x0000, 3) : Word × Word) = p := by simpa [sound] using hp
    rw [if_pos (by decide)]
    exact ⟨by decide, 0x1079, rfl, .inl (by decide)⟩

/-- The statement's conclusion at this image: DONE, and the window it describes. -/
theorem test_restoreCommit_passes :
    let t := go (.restoreCommit 2 []) (filledWith (wordsOf sound 0xF305 0x2000))
    t.lastOutcome.result = .done ∧ t.composer.cells = [.char 0x72, .char 0x79] ∧
      t.composer.spans = [⟨⟨.a, 0⟩, 0, 3⟩] ∧ t.emission = (live 5000).emission ∧
      t.cues = [⟨1, 500, 0, .handoff 1 4⟩] := by decide +kernel

/-- A pipeline in order: a token in each lane queue, one in the schedule, a group half taken on the row,
entries on both stacks, and a cue. -/
def orderly : State :=
  { inHold (knowing 77 (live 100)) with
    laneA := { LaneState.reset with
      queue := [wordA 2 [0x62] 90 95], speechLast := some 90
      stack := [⟨.waiting, ⟨.a, 2⟩⟩, ⟨.sending, ⟨.a, 0⟩⟩] }
    laneB := { LaneState.reset with
      queue := [wordB 5 [0x63, 0x7F, 0xE9] 88 95], speechLast := some 88
      stack := [⟨.dropped, ⟨.b, 4⟩⟩] }
    schedule := [wordA 1 [0x61] 80 85]
    retiming := { Retiming.reset with speechTail := some 80 }
    composer := { Composer.reset with
      cells := [.roll, .char 0x72, .char 0x79], cursor := 3
      groups := [⟨⟨.a, 0⟩, some (70, 75), 3, 1, 1⟩], spans := [⟨⟨.a, 0⟩, 0, 3⟩] }
    cues := [⟨1, 500, 1, .handoff 300 4⟩] }

/-- The part that takes `orderly` over. -/
def receiver : State :=
  { inHold (live 5000) with
    image := ⟨.filling, image orderly, 0, false⟩ }

/-- SNAPSHOT writes the image that the statements give. -/
theorem test_snapshot_orderly : (go (.snapshot 1 []) orderly).image.words = image orderly := by
  decide +kernel

theorem witness_RestoreLoadsASnapshot :
    SettingsHold orderly ∧ FloorHolds orderly ∧ PipelineHolds orderly ∧
      receiver.resetLow = false ∧ receiver.image.state = .filling ∧
      receiver.image.words = image orderly ∧ receiver.image.overfilled = false :=
  ⟨by decide, by decide, by decide, rfl, rfl, rfl, rfl⟩

/-- The first of two neighbours in a list of one element: there are none. -/
theorem no_neighbours {α : Type} (a t u : α) (front back : List α)
    (h : [a] = front ++ t :: u :: back) : False := by
  have := congrArg List.length h
  simp at this
  omega

theorem witness_RestoreLoadsASnapshot_inOrder : inOrder orderly := by
  refine ⟨by decide, ?_, by decide, ?_, ?_, by decide, ?_, ?_, ?_, by decide⟩
  · intro c hc
    simp only [orderly, Composer.reset, List.mem_cons, List.not_mem_nil, or_false] at hc
    rcases hc with rfl | rfl | rfl
    · trivial
    · show shown _ = _
      decide
    · show shown _ = _
      decide
  · exact ⟨[.roll], [.char 0x72, .char 0x79], [], rfl, by decide, rfl, by decide, by decide,
      by simp [runsStand]⟩
  · intro left sp h
    have hl : left = [] ∧ sp = ⟨⟨.a, 0⟩, 0, 3⟩ := by
      cases left with
      | nil => exact ⟨rfl, by simpa [orderly] using h.symm⟩
      | cons a l =>
        have := congrArg List.length h
        simp [orderly] at this
    obtain ⟨rfl, rfl⟩ := hl
    refine ⟨fun _ => ⟨⟨[], _, rfl, rfl⟩, [.roll, .char 0x72], .char 0x79, rfl, rfl⟩, fun hn => ?_⟩
    exact absurd (by decide) hn
  · intro front t u back h
    exact (no_neighbours _ t u front back h).elim
  · intro front t h
    cases front with
    | nil =>
      obtain rfl : wordA 1 [0x61] 80 85 = t := by simpa [orderly] using h
      exact ⟨80, rfl, by decide⟩
    | cons a l =>
      have := congrArg List.length h
      simp [orderly] at this
  · intro left sp right h
    cases left with
    | nil =>
      obtain ⟨rfl, rfl⟩ : (⟨⟨.a, 0⟩, 0, 3⟩ : Span) = sp ∧ [] = right := by simpa [orderly] using h
      rfl
    | cons a l =>
      have := congrArg List.length h
      simp [orderly] at this

/-- The statement's conclusion at this state. -/
theorem test_restore_loads_orderly :
    go (.restoreCommit 2 []) receiver =
      answered 0x0E 2 .done (admissionRun (loaded orderly receiver)) := by
  decide +kernel

/-- Every invariant holds of a state that steps. -/
theorem witness_EveryStepKeepsRanges :
    let s := { live 1 with pending := [.slewTick] }
    SramHolds s ∧ SettingsHold s ∧ TimebaseHolds s ∧ FloorHolds s ∧ ServiceHolds s ∧
      (step s = .next (live 1)) :=
  ⟨by decide, by decide, by decide, by decide, by decide, rfl⟩

theorem witness_EveryStepKeepsThePipeline :
    let s := { orderly with pending := [.slewTick] }
    PipelineHolds s ∧ step s = .next orderly :=
  ⟨by decide, rfl⟩

/-- `orderly` with the ROLL taken, so that the group at the front of the queue is the one half taken. -/
def settled : State :=
  { orderly with composer := { orderly.composer with cells := [.char 0x72, .char 0x79] } }

theorem witness_rowStands_settled : rowStands settled.composer := by
  refine ⟨[], [.char 0x72, .char 0x79], [], _, [], _, rfl, rfl, rfl, rfl, ?_, ?_, ?_, by decide, ?_,
    .inl ⟨rfl, by simp, by decide⟩⟩
  · exact .cons (by decide) .nil
  · simp [runsStand]
  · exact ⟨[], [.char 0x72, .char 0x79], [], rfl, by decide, rfl, by decide, by decide,
      by simp [runsStand]⟩
  · intro ahead g behind h _
    cases ahead with
    | nil => exact ⟨rfl, _, _, rfl, by decide⟩
    | cons a l =>
      have := congrArg List.length h
      simp [settled, orderly] at this

/-- `settled` is in order. -/
theorem witness_ordered_settled : ordered settled := by
  refine ⟨by decide, by decide, by decide, by decide, ?_, by decide, witness_rowStands_settled,
    by decide, by decide, ?_, ?_, by decide⟩
  · intro c hc
    obtain rfl | rfl : c = .char 0x72 ∨ c = .char 0x79 := by simpa [settled] using hc
    · show shown _ = _
      decide
    · show shown _ = _
      decide
  · intro t ht
    obtain rfl : t = wordA 1 [0x61] 80 85 := by simpa [settled, orderly] using ht
    exact ⟨80, rfl, by decide⟩
  · intro left sp right h
    cases left with
    | nil =>
      obtain ⟨rfl, rfl⟩ : (⟨⟨.a, 0⟩, 0, 3⟩ : Span) = sp ∧ [] = right := by
        simpa [settled, orderly] using h
      rfl
    | cons a l =>
      have := congrArg List.length h
      simp [settled, orderly] at this

/-- Its speech counts are near. -/
theorem witness_timely_settled : timely settled := every (by decide)

/-- A state in order that steps, not FILLING and FILLING with the image of a state in order. -/
theorem witness_ResetMeetsTheInvariants :
    let s := { settled with pending := [.take .inserter 0] }
    let f := { s with image := ⟨.filling, image settled, 0, false⟩ }
    (ordered s ∧ timely s ∧ fillFits s ∧ step s = .next (go (.take .inserter 0) settled)) ∧
      ordered f ∧ timely f ∧ fillFits f :=
  ⟨⟨witness_ordered_settled, witness_timely_settled, fun _ h => absurd h (by decide), rfl⟩,
   witness_ordered_settled, witness_timely_settled,
   fun _ _ _ _ _ _ => ⟨settled, witness_ordered_settled, witness_timely_settled, rfl⟩⟩

end Sys2Proof.Tests
end

section
/-! SUPPORT. Programme time (01_programme_time.md): what the operations of the part do to the
reference's clock, and the statements of that family settled. -/

namespace Sys2Proof.ProgrammeTime

open Sys2Proof.Machine Sys2Proof.Expect

/-! ### The reference's clock -/

/-- The part of the Timebase that R1 to R7 move: its state, its moments and E. -/
structure Clock where
  state : TimebaseState
  now : Nat
  deadline : Option Nat
  nextPulse : Option Nat
  lastInternal : Option Nat
  e : Frame

/-- The clock of a Timebase. -/
def clockOf (tb : Timebase) : Clock :=
  { state := tb.state, now := tb.now, deadline := tb.deadline, nextPulse := tb.nextPulse,
    lastInternal := tb.lastInternal, e := tb.e }

/-! ### What keeps the clock -/

@[simp] theorem clockOf_receiveBits (bits : List Bool) (falls : Bool) (tb : Timebase) :
    clockOf (receiveBits bits falls tb) = clockOf tb := by
  unfold receiveBits endFraming
  dsimp only
  (repeat' split) <;> rfl

@[simp] theorem clockOf_classify (new day : Nat) (s : State) :
    clockOf (classify new day s).timebase = clockOf s.timebase := by
  unfold classify
  dsimp only
  split <;> simp [clockOf]

/-- Opening a frame's timecode moves the label alone, never the clock (R8, R11, R12). -/
@[simp] theorem clockOf_openTimecode (s : State) :
    clockOf (openTimecode s).timebase = clockOf s.timebase := by
  unfold openTimecode
  dsimp only
  split
  · simp [clockOf, extrapolate]
  · split
    · rw [clockOf_classify]; rfl
    · simp [clockOf, extrapolate]

@[simp] theorem clockOf_slewTick (s : State) :
    clockOf (slewTick s).timebase = clockOf s.timebase := rfl

@[simp] theorem clockOf_slewStep (s : State) :
    clockOf (slewStep s).timebase = clockOf s.timebase := by
  unfold slewStep
  split <;> rfl

/-- No reaction to a frame event moves the clock, in whichever order they come (R7, log 3). -/
@[simp] theorem clockOf_react (o : FrameOrder) (s : State) :
    clockOf (react o s).timebase = clockOf s.timebase := by
  unfold react reactionsOf
  cases o.timer <;> simp

/-- SLEW resets the ticker, which is no part of the clock (R16). -/
@[simp] theorem clockOf_setSlew (mode : Word) (s : State) :
    clockOf (setSlew mode s).1.timebase = clockOf s.timebase := by
  unfold setSlew setSlewMode
  (repeat' split) <;> rfl

@[simp] theorem clockOf_loadSections (ws : List Word) (g : ImageSections) (s : State) :
    clockOf (loadSections ws g s).timebase = clockOf s.timebase := rfl

@[simp] theorem clockOf_commitRestore (s : State) :
    clockOf (commitRestore s).1.timebase = clockOf s.timebase := by
  unfold commitRestore
  (repeat' split) <;> simp

/-- No directive moves the clock (R7): SLEW and RESTORE_COMMIT touch the ticker, the others keep the
whole Timebase. -/
@[simp] theorem clockOf_directiveOwner (d : Directive) (tag : Byte) (params : List Word)
    (s : State) : clockOf (directiveOwner d tag params s).1.timebase = clockOf s.timebase := by
  cases d <;> simp [directiveOwner]

@[simp] theorem finishDirective_timebase (code : BitVec 5) (tag : Byte) (r : State × Result) :
    (finishDirective code tag r).timebase = r.1.timebase := by
  simp [finishDirective]

@[simp] theorem clockOf_carryOut (d : Directive) (tag : Byte) (params : List Word) (s : State) :
    clockOf (carryOut d tag params s).timebase = clockOf s.timebase := by
  unfold carryOut judgeDirective
  split <;> simp

@[simp] theorem clockOf_directiveRecord (code : BitVec 5) (tag : Byte) (params : List Word)
    (s : State) : clockOf (directiveRecord code tag params s).timebase = clockOf s.timebase := by
  unfold directiveRecord
  split <;> simp

@[simp] theorem clockOf_commitRecord (r : Ring) (header : Word) (body : List Word) (s : State) :
    clockOf (commitRecord r header body s).timebase = clockOf s.timebase := by
  cases r <;> simp [commitRecord]

@[simp] theorem clockOf_takeHeader (r : Ring) (off : Nat) (w : Word) (s : State) :
    clockOf (takeHeader r off w s).timebase = clockOf s.timebase := by
  unfold takeHeader
  dsimp only
  split <;> simp

@[simp] theorem clockOf_takeBody (r : Ring) (st : Staging) (off : Nat) (w : Word) (s : State) :
    clockOf (takeBody r st off w s).timebase = clockOf s.timebase := by
  unfold takeBody
  dsimp only
  split <;> simp

@[simp] theorem clockOf_followWrite (r : Ring) (off : Nat) (w : Word) (s : State) :
    clockOf (followWrite r off w s).timebase = clockOf s.timebase := by
  unfold followWrite discontinuity
  dsimp only
  (repeat' split) <;> simp

@[simp] theorem clockOf_busWrite (q : Requester) (ma : BitVec 20) (w : Word) (s : State) :
    clockOf (busWrite q ma w s).timebase = clockOf s.timebase := by
  unfold busWrite
  dsimp only
  split <;> simp

/-! ### The frame event -/

/-- Opening a frame moves E on by one and keeps the rest of the clock (R7). -/
theorem clockOf_openFrame (closes : Bool) (s : State) :
    clockOf (openFrame closes s).timebase =
      { clockOf s.timebase with e := s.timebase.e + 1 } := by
  unfold openFrame
  cases closes <;> simp <;> rfl

/-- So does a whole frame event. -/
theorem clockOf_frameEvent (o : FrameOrder) (closes : Bool) (s : State) :
    clockOf (frameEvent o closes s).timebase =
      { clockOf s.timebase with e := s.timebase.e + 1 } := by
  rw [frameEvent, clockOf_react, clockOf_openFrame]

/-! ### Edges and internal frame events -/

/-- The deadline's clock: FREEWHEEL from that moment on, one frame later (R4). -/
theorem clockOf_deadlineReached (o : FrameOrder) (moment : Nat) (s : State) :
    clockOf (deadlineReached o moment s).timebase =
      { state := .freewheel, now := moment, deadline := none,
        nextPulse := some (moment + nominalPeriod (rateOf s.rate)),
        lastInternal := some moment, e := s.timebase.e + 1 } := by
  unfold deadlineReached
  rw [clockOf_frameEvent]
  rfl

/-- The next pulse's clock: the state stays, one frame later (R5). -/
theorem clockOf_pulseReached (o : FrameOrder) (moment : Nat) (s : State) :
    clockOf (pulseReached o moment s).timebase =
      { clockOf s.timebase with
        now := moment, nextPulse := some (moment + nominalPeriod (rateOf s.rate)),
        lastInternal := some moment, e := s.timebase.e + 1 } := by
  unfold pulseReached
  rw [clockOf_frameEvent]
  rfl

theorem edgeAbsorbed_of_not_freewheel (moment : Nat) {s : State}
    (hs : s.timebase.state ≠ .freewheel) : edgeAbsorbed moment s = false := by
  unfold edgeAbsorbed
  split
  · next h _ => exact absurd h hs
  · rfl

theorem edgeAbsorbed_freewheel (moment : Nat) {s : State} {last : Nat}
    (hs : s.timebase.state = .freewheel) (hl : s.timebase.lastInternal = some last) :
    edgeAbsorbed moment s = decide (moment < last + absorbWindow (rateOf s.rate)) := by
  simp [edgeAbsorbed, hs, hl]

/-- An absorbed edge relocks and does nothing else (R6). -/
theorem edgeAt_of_absorbed (o : FrameOrder) {moment : Nat} {s : State}
    (h : edgeAbsorbed moment s = true) : edgeAt o moment s = lockAt moment s := by
  simp [edgeAt, h]

/-- An edge that is not absorbed is a frame event; the first after the reset pin closes no frame
(R2, R3, R6, R126). -/
theorem edgeAt_of_not_absorbed (o : FrameOrder) {moment : Nat} {s : State}
    (h : edgeAbsorbed moment s = false) :
    edgeAt o moment s =
      frameEvent o (decide (s.timebase.state ≠ .absent)) (lockAt moment s) := by
  simp [edgeAt, h]

/-- An edge's clock: LOCKED with a new deadline and no next pulse, one frame later unless the edge is
absorbed (R2, R3, R6). -/
theorem clockOf_edgeAt (o : FrameOrder) (moment : Nat) (s : State) :
    clockOf (edgeAt o moment s).timebase =
      { state := .locked, now := moment,
        deadline := some (moment + freewheelDelay (rateOf s.rate)), nextPulse := none,
        lastInternal := s.timebase.lastInternal,
        e := if edgeAbsorbed moment s then s.timebase.e else s.timebase.e + 1 } := by
  cases h : edgeAbsorbed moment s with
  | true => rw [edgeAt_of_absorbed o h]; rfl
  | false => rw [edgeAt_of_not_absorbed o h, clockOf_frameEvent]; rfl

/-- With no internal frame event due before it, an edge is taken at once (log 6). -/
theorem edgeAfter_eq_edgeAt (elapsed : Nat) (o : FrameOrder) {s : State}
    (h : ∀ m, internalMoment s.timebase = some m → s.timebase.now + elapsed ≤ m) :
    edgeAfter elapsed o s = edgeAt o (s.timebase.now + elapsed) s := by
  have hrun : ∀ fuel, runClock fuel o (s.timebase.now + elapsed) s = s := by
    intro fuel
    cases fuel with
    | zero => rfl
    | succ k =>
      unfold runClock
      split
      · rfl
      · next m hm => rw [if_neg (Nat.not_lt.mpr (h m hm))]
  simp [edgeAfter, hrun]

theorem edgeAfter_state (elapsed : Nat) (o : FrameOrder) (s : State) :
    (edgeAfter elapsed o s).timebase.state = .locked :=
  congrArg Clock.state (clockOf_edgeAt o _ _)

/-! ### Commands of the reference -/

theorem exec_fpEdge {s : State} (elapsed : Nat) (o : FrameOrder) (h : s.resetLow = false) :
    exec (.fpEdge elapsed o) s = .next (edgeAfter elapsed o s) := by
  simp [exec, execFpEdge, done, whileReleased, h]

/-- An edge in LOCKED up to the deadline is taken at once (R3). -/
theorem exec_fpEdge_of_locked {s : State} {elapsed d : Nat} (o : FrameOrder)
    (h : s.resetLow = false) (hs : s.timebase.state = .locked)
    (hd : s.timebase.deadline = some d) (hle : s.timebase.now + elapsed ≤ d) :
    exec (.fpEdge elapsed o) s = .next (edgeAt o (s.timebase.now + elapsed) s) := by
  rw [exec_fpEdge elapsed o h, edgeAfter_eq_edgeAt]
  simp [internalMoment, hs, hd, hle]

/-- An edge in FREEWHEEL up to the next pulse is taken at once (R6). -/
theorem exec_fpEdge_of_freewheel {s : State} {elapsed p : Nat} (o : FrameOrder)
    (h : s.resetLow = false) (hs : s.timebase.state = .freewheel)
    (hp : s.timebase.nextPulse = some p) (hle : s.timebase.now + elapsed ≤ p) :
    exec (.fpEdge elapsed o) s = .next (edgeAt o (s.timebase.now + elapsed) s) := by
  rw [exec_fpEdge elapsed o h, edgeAfter_eq_edgeAt]
  simp [internalMoment, hs, hp, hle]

/-- Sooner than one absorb window after the last internal frame event it only relocks (R6). -/
theorem exec_fpEdge_absorbed {s : State} {elapsed m p : Nat} (o : FrameOrder)
    (h : s.resetLow = false) (hs : s.timebase.state = .freewheel)
    (hl : s.timebase.lastInternal = some m) (hp : s.timebase.nextPulse = some p)
    (hle : s.timebase.now + elapsed ≤ p)
    (hlt : s.timebase.now + elapsed < m + absorbWindow (rateOf s.rate)) :
    exec (.fpEdge elapsed o) s = .next (lockAt (s.timebase.now + elapsed) s) := by
  rw [exec_fpEdge_of_freewheel o h hs hp hle, edgeAt_of_absorbed]
  rw [edgeAbsorbed_freewheel _ hs hl]
  exact decide_eq_true hlt

/-- So an edge at the very moment of an internal frame event, and after it, only relocks
(R4, R6). -/
theorem exec_fpEdge_at_internal {s : State} {m : Nat} (o : FrameOrder) (h : s.resetLow = false)
    (hs : s.timebase.state = .freewheel) (hnow : s.timebase.now = m)
    (hl : s.timebase.lastInternal = some m)
    (hp : s.timebase.nextPulse = some (m + nominalPeriod (rateOf s.rate))) :
    exec (.fpEdge 0 o) s = .next (lockAt m s) := by
  have hpos : 0 < absorbWindow (rateOf s.rate) := by cases rateOf s.rate <;> decide
  rw [exec_fpEdge_absorbed o h hs hl hp (by omega) (by omega), hnow, Nat.add_zero]

/-- An edge in ABSENT is taken at once (R2). -/
theorem exec_fpEdge_of_absent {s : State} (elapsed : Nat) (o : FrameOrder)
    (h : s.resetLow = false) (hs : s.timebase.state = .absent) :
    exec (.fpEdge elapsed o) s = .next (edgeAt o (s.timebase.now + elapsed) s) := by
  rw [exec_fpEdge elapsed o h, edgeAfter_eq_edgeAt]
  simp [internalMoment, hs]

theorem exec_freewheelDeadline {s : State} {d : Nat} (o : FrameOrder) (h : s.resetLow = false)
    (hs : s.timebase.state = .locked) (hd : s.timebase.deadline = some d) :
    exec (.freewheelDeadline o) s = .next (deadlineReached o d s) := by
  simp [exec, execFreewheelDeadline, done, whileReleased, reachDeadline, h, hs, hd]

theorem exec_nextPulse {s : State} {p : Nat} (o : FrameOrder) (h : s.resetLow = false)
    (hs : s.timebase.state = .freewheel) (hp : s.timebase.nextPulse = some p) :
    exec (.nextPulse o) s = .next (pulseReached o p s) := by
  simp [exec, execNextPulse, done, whileReleased, reachPulse, h, hs, hp]

/-! ### What every other command keeps -/

theorem eq_of_done {u t : State} (h : done u = .next t) : t = u := by
  cases h
  rfl

theorem whileReleased_cases (f : State → State) (s : State) :
    whileReleased f s = s ∨ whileReleased f s = f s :=
  ite_eq_or_eq _ _ _

/-- What an operation keeps is kept when it acts only while RESET is high. -/
theorem whileReleased_keeps {α : Type} (v : State → α) {f : State → State} {s : State}
    (hf : v (f s) = v s) : v (whileReleased f s) = v s := by
  rcases whileReleased_cases f s with h | h
  · rw [h]
  · rw [h, hf]

/-- What an operation keeps is kept when it acts only outside ABSENT. -/
theorem outsideAbsent_keeps {α : Type} (v : State → α) {f : State → State} {s : State}
    (hf : v (f s) = v s) : v (outsideAbsent f s) = v s := by
  unfold outsideAbsent
  split
  · rfl
  · exact hf

/-- The sampled rate and the clock. -/
def timingOf (s : State) : BitVec 2 × Clock := (s.rate, clockOf s.timebase)

/-- Every command but the edges, the clock's moments and the release of RESET keeps the sampled rate
and the clock (R1, R2, R7): RESET_ASSERT, the parts of a frame event, the accesses, and the receptions,
records and directives. -/
theorem exec_keeps_timing {c : Instr} {s t : State} (h : exec c s = .next t)
    (href : ofReference c = false) (hc : isRelease c = false) : timingOf t = timingOf s := by
  cases c with
  | resetRelease => cases hc
  | fpEdge | freewheelDeadline | nextPulse => cases href
  | resetAssert => rw [eq_of_done h]; rfl
  | slewTick | passTimerExpiry =>
    rw [eq_of_done h]
    exact whileReleased_keeps timingOf (outsideAbsent_keeps timingOf (by split <;> simp [timingOf]))
  | recordStall | cueFire =>
    rw [eq_of_done h]
    exact whileReleased_keeps timingOf (outsideAbsent_keeps timingOf (by simp [timingOf]))
  | ringWrite | passedWrite | restorePortWrite | take | reread | attentionSummaryRead
  | latchedLowRead | contextPortRead =>
    rw [eq_of_done h]
    simp [timingOf]
  | _ =>
    rw [eq_of_done h]
    exact whileReleased_keeps timingOf (by simp [timingOf])

theorem exec_keeps_clock {c : Instr} {s t : State} (h : exec c s = .next t)
    (href : ofReference c = false) (hc : isRelease c = false) :
    clockOf t.timebase = clockOf s.timebase :=
  congrArg Prod.snd (exec_keeps_timing h href hc)

@[simp] theorem reachDeadline_rate (o : FrameOrder) (s : State) :
    (reachDeadline o s).rate = s.rate := by
  unfold reachDeadline
  split <;> simp

@[simp] theorem reachPulse_rate (o : FrameOrder) (s : State) :
    (reachPulse o s).rate = s.rate := by
  unfold reachPulse
  split <;> simp

/-- Every command but the release of RESET keeps the sampled rate (R1). -/
theorem exec_keeps_rate {c : Instr} {s t : State} (h : exec c s = .next t)
    (hc : isRelease c = false) : t.rate = s.rate := by
  cases href : ofReference c with
  | false => exact congrArg Prod.fst (exec_keeps_timing h href hc)
  | true =>
    cases c with
    | fpEdge | freewheelDeadline | nextPulse =>
      rw [eq_of_done h]
      exact whileReleased_keeps (·.rate) (by simp)
    | _ => cases href

/-! ### ABSENT -/

theorem reachDeadline_of_absent (o : FrameOrder) {s : State} (hs : s.timebase.state = .absent) :
    reachDeadline o s = s := by
  simp [reachDeadline, hs]

theorem reachPulse_of_absent (o : FrameOrder) {s : State} (hs : s.timebase.state = .absent) :
    reachPulse o s = s := by
  simp [reachPulse, hs]

/-- In ABSENT no moment of the clock and no part of a frame event acts (R2). -/
theorem exec_inert_of_absent {s : State} (hs : s.timebase.state = .absent) :
    (∀ o, exec (.freewheelDeadline o) s = .next s) ∧ (∀ o, exec (.nextPulse o) s = .next s) ∧
    exec .slewTick s = .next s ∧ (∀ r, exec (.recordStall r) s = .next s) ∧
    exec .passTimerExpiry s = .next s ∧ exec .cueFire s = .next s := by
  have hout : ∀ f : State → State, done (whileReleased (outsideAbsent f) s) = .next s := fun f =>
    congrArg done (whileReleased_keeps id (by simp [outsideAbsent, hs]))
  have hrel : ∀ f : State → State, f s = s → done (whileReleased f s) = .next s := fun f hf =>
    congrArg done (whileReleased_keeps id hf)
  exact ⟨fun o => hrel _ (reachDeadline_of_absent o hs), fun o => hrel _ (reachPulse_of_absent o hs),
    hout _, fun r => hout _, hout _, hout _⟩

/-- The release of RESET enters ABSENT (R2). -/
theorem absent_of_release {c : Instr} {s t : State} (h : exec c s = .next t)
    (hc : isRelease c = true) : t.timebase.state = .absent := by
  cases c with
  | resetRelease => rw [eq_of_done h]; rfl
  | _ => cases hc

/-- The next pulse keeps the state (R5). -/
theorem reachPulse_state (o : FrameOrder) (s : State) :
    (reachPulse o s).timebase.state = s.timebase.state := by
  unfold reachPulse
  split
  · exact congrArg Clock.state (clockOf_pulseReached o _ s)
  · rfl

/-- The deadline leads to FREEWHEEL or does nothing (R4). -/
theorem absent_of_reachDeadline {o : FrameOrder} {s : State}
    (h : (reachDeadline o s).timebase.state = .absent) : s.timebase.state = .absent := by
  unfold reachDeadline at h
  split at h
  · next d _ _ =>
    have hstate := congrArg Clock.state (clockOf_deadlineReached o d s)
    cases h.symm.trans hstate
  · exact h

/-- An edge, the deadline and the next pulse never enter ABSENT (R2). -/
theorem absent_of_reference {c : Instr} {s t : State} (h : exec c s = .next t)
    (href : ofReference c = true) (ht : t.timebase.state = .absent) :
    s.timebase.state = .absent := by
  cases c with
  | fpEdge elapsed o =>
    obtain rfl := eq_of_done h
    rcases whileReleased_cases (edgeAfter elapsed o) s with heq | heq <;> rw [heq] at ht
    · exact ht
    · cases ht.symm.trans (edgeAfter_state elapsed o s)
  | freewheelDeadline o =>
    obtain rfl := eq_of_done h
    rcases whileReleased_cases (reachDeadline o) s with heq | heq <;> rw [heq] at ht
    · exact ht
    · exact absent_of_reachDeadline ht
  | nextPulse o =>
    obtain rfl := eq_of_done h
    exact (whileReleased_keeps (·.timebase.state) (reachPulse_state o s)).symm.trans ht
  | _ => cases href

/-! ### Entries into FREEWHEEL: counter and attention bit -/

@[simp] theorem bumpCounter_freewheelEntries {c : Counter} (k : Counters)
    (hc : c ≠ .freewheelEntries) :
    (bumpCounter c k).freewheelEntries = k.freewheelEntries :=
  (counterValue_bumpCounter c .freewheelEntries k).trans (if_neg hc.symm)

@[simp] theorem causeBit_getElem_4 (c : Cause) :
    (causeBit c)[4] = decide (c = .freewheelEntry) := by
  cases c <;> decide

@[simp] theorem countTimes_freewheelEntries {c : Counter} (n : Nat) (s : State)
    (hc : c ≠ .freewheelEntries) :
    (countTimes c n s).counters.freewheelEntries = s.counters.freewheelEntries :=
  BitVec.eq_of_toNat_eq
    ((counterValue_countTimes c .freewheelEntries n s).trans (if_neg hc.symm))

@[simp] theorem countIf_freewheelEntries {c : Counter} (b : Bool) (s : State)
    (hc : c ≠ .freewheelEntries) :
    (countIf c b s).counters.freewheelEntries = s.counters.freewheelEntries := by
  cases b <;> simp [countIf, hc]

@[simp] theorem completePass_freewheelEntries (x : Lane) (s : State) :
    (completePass x s).counters.freewheelEntries = s.counters.freewheelEntries := by
  simp [completePass, trimTokens]

@[simp] theorem admitToken_freewheelEntries (x : Lane) (t : Token) (rest : List Token)
    (s : State) :
    (admitToken x t rest s).counters.freewheelEntries = s.counters.freewheelEntries := by
  unfold admitToken sentEndAdmitted
  dsimp only
  (repeat' split) <;> simp

@[simp] theorem admitUpTo_freewheelEntries (fuel : Nat) (s : State) :
    (admitUpTo fuel s).counters.freewheelEntries = s.counters.freewheelEntries := by
  induction fuel generalizing s with
  | zero => rfl
  | succ n ih =>
    unfold admitUpTo
    dsimp only
    (repeat' split) <;> simp [ih]

@[simp] theorem admissionRun_freewheelEntries (s : State) :
    (admissionRun s).counters.freewheelEntries = s.counters.freewheelEntries :=
  admitUpTo_freewheelEntries _ s

@[simp] theorem completePassAndAdmit_freewheelEntries (x : Lane) (s : State) :
    (completePassAndAdmit x s).counters.freewheelEntries = s.counters.freewheelEntries := by
  simp [completePassAndAdmit]

@[simp] theorem passTimerStep_freewheelEntries (s : State) :
    (passTimerStep s).counters.freewheelEntries = s.counters.freewheelEntries := by
  unfold passTimerStep
  dsimp only
  (repeat' split) <;> simp

@[simp] theorem composeToken_freewheelEntries (t : Token) (s : State) :
    (composeToken t s).counters.freewheelEntries = s.counters.freewheelEntries := by
  unfold composeToken
  dsimp only
  split <;> simp

@[simp] theorem releaseUpTo_freewheelEntries (fuel : Nat) (s : State) :
    (releaseUpTo fuel s).counters.freewheelEntries = s.counters.freewheelEntries := by
  induction fuel generalizing s with
  | zero => rfl
  | succ n ih =>
    unfold releaseUpTo
    (repeat' split) <;> simp [ih, discardHead, releaseHead]

@[simp] theorem releasePass_freewheelEntries (s : State) :
    (releasePass s).counters.freewheelEntries = s.counters.freewheelEntries := by
  unfold releasePass
  split <;> simp

@[simp] theorem handoff_freewheelEntries (lane wait : Word) (s : State) :
    (handoff lane wait s).1.counters.freewheelEntries = s.counters.freewheelEntries := by
  unfold handoff startPass
  dsimp only
  (repeat' split) <;> simp

@[simp] theorem actionOwner_freewheelEntries (a : CueAction) (s : State) :
    (actionOwner a s).1.counters.freewheelEntries = s.counters.freewheelEntries := by
  cases a <;> simp [actionOwner]

@[simp] theorem settleAction_entry (r : Result) (s : State) :
    (settleAction r s).counters.freewheelEntries = s.counters.freewheelEntries ∧
    (settleAction r s).attention[4] = s.attention[4] := by
  unfold settleAction
  split <;> simp

@[simp] theorem fireOldest_entry (s : State) :
    (fireOldest s).counters.freewheelEntries = s.counters.freewheelEntries ∧
    (fireOldest s).attention[4] = s.attention[4] := by
  unfold fireOldest fireCue
  split <;> simp

@[simp] theorem fireUpTo_entry (n : Nat) (s : State) :
    (fireUpTo n s).counters.freewheelEntries = s.counters.freewheelEntries ∧
    (fireUpTo n s).attention[4] = s.attention[4] := by
  induction n generalizing s with
  | zero => exact ⟨rfl, rfl⟩
  | succ n ih => simp [fireUpTo, ih]

/-- No reaction to a frame event counts or raises a FREEWHEEL entry. -/
@[simp] theorem react_entry (o : FrameOrder) (s : State) :
    (react o s).counters.freewheelEntries = s.counters.freewheelEntries ∧
    (react o s).attention[4] = s.attention[4] := by
  unfold react reactionsOf fireSome fireAll
  cases o.timer <;> simp

@[simp] theorem openTimecode_entry (s : State) :
    (openTimecode s).counters.freewheelEntries = s.counters.freewheelEntries ∧
    (openTimecode s).attention[4] = s.attention[4] := by
  unfold openTimecode classify
  dsimp only
  (repeat' split) <;> simp

@[simp] theorem retireStale_freewheelEntries (s : State) :
    (retireStale s).counters.freewheelEntries = s.counters.freewheelEntries := by
  unfold retireStale
  split <;> simp

@[simp] theorem stallCheck_entry (r : Ring) (s : State) :
    (stallCheck r s).counters.freewheelEntries = s.counters.freewheelEntries ∧
    (stallCheck r s).attention[4] = s.attention[4] := by
  unfold stallCheck
  split <;> simp

@[simp] theorem openFrame_entry (closes : Bool) (s : State) :
    (openFrame closes s).counters.freewheelEntries = s.counters.freewheelEntries ∧
    (openFrame closes s).attention[4] = s.attention[4] := by
  unfold openFrame stallChecks judgeFrame
  cases closes <;> simp

/-- A frame event is no entry into FREEWHEEL by itself: it neither counts nor raises one. -/
@[simp] theorem frameEvent_entry (o : FrameOrder) (closes : Bool) (s : State) :
    (frameEvent o closes s).counters.freewheelEntries = s.counters.freewheelEntries ∧
    (frameEvent o closes s).attention[4] = s.attention[4] := by
  simp [frameEvent]

/-- Nor is an edge, absorbed or not (R6). -/
theorem edgeAt_entry (o : FrameOrder) (moment : Nat) (s : State) :
    (edgeAt o moment s).counters.freewheelEntries = s.counters.freewheelEntries ∧
    (edgeAt o moment s).attention[4] = s.attention[4] := by
  cases h : edgeAbsorbed moment s with
  | true => simp [edgeAt_of_absorbed o h]
  | false => simp [edgeAt_of_not_absorbed o h]

theorem countUp_eq_up (w : Word) : countUp w = up w := by
  apply BitVec.eq_of_toNat_eq
  rw [countUp_toNat]
  simp [up, upBy]
  omega

/-- The deadline counts and raises one entry (R4). -/
theorem deadlineReached_entry (o : FrameOrder) (moment : Nat) (s : State) :
    (deadlineReached o moment s).counters.freewheelEntries = up s.counters.freewheelEntries ∧
    (deadlineReached o moment s).attention[4] = true := by
  simp [deadlineReached, bumpCounter, countUp_eq_up]

/-- The next pulse does neither (R5). -/
theorem pulseReached_freewheelEntries (o : FrameOrder) (moment : Nat) (s : State) :
    (pulseReached o moment s).counters.freewheelEntries = s.counters.freewheelEntries := by
  simp [pulseReached]

/-! ### Received bits -/

/-- A sampled bit becomes the least significant, and those before it move up (R185). -/
theorem getLsbD_shiftIn (w : BitVec 32) (b : Bool) (j : Nat) (hj : j < 32) :
    ((w <<< 1) ||| (BitVec.ofBool b).zeroExtend 32).getLsbD j =
      if j = 0 then b else w.getLsbD (j - 1) := by
  cases j with
  | zero => simp
  | succ k => simp [hj, BitVec.getLsbD_eq_getElem (show k < 32 by omega)]

theorem getLsbD_foldl_shiftIn (bits : List Bool) (w : BitVec 32) (j : Nat) (hj : j < 32) :
    BitVec.getLsbD
      (bits.foldl (fun w b => (w <<< 1) ||| (BitVec.ofBool b).zeroExtend 32) w) j =
      if j < bits.length then bits.getD (bits.length - 1 - j) false
      else w.getLsbD (j - bits.length) := by
  induction bits generalizing w with
  | nil => simp
  | cons b rest ih =>
    rw [List.foldl_cons, ih]
    rcases Nat.lt_trichotomy j rest.length with hlt | heq | hgt
    · have hidx : (b :: rest).length - 1 - j = (rest.length - 1 - j) + 1 := by
        simp only [List.length_cons]; omega
      rw [if_pos hlt, if_pos (by simp only [List.length_cons]; omega), hidx, List.getD_cons_succ]
    · subst heq
      simp
    · rw [if_neg (by omega), if_neg (by simp only [List.length_cons]; omega),
        getLsbD_shiftIn _ _ _ (by omega), if_neg (by omega), List.length_cons, Nat.sub_sub]

/-- The first of 32 sampled bits is the word's most significant (R185). -/
theorem getLsbD_wordOfBits {bits : List Bool} (h : bits.length = 32) {i : Nat} (hi : i < 32) :
    (wordOfBits bits).getLsbD (31 - i) = bits.getD i false := by
  rw [wordOfBits, getLsbD_foldl_shiftIn _ _ _ (by omega), if_pos (by omega)]
  congr 1
  omega

/-- A framing of 32 bits that TCS ends becomes the pending word (R8). -/
theorem receiveBits_complete {bits : List Bool} {tb : Timebase} (hf : tb.framing = none)
    (h : bits.length = 32) :
    receiveBits bits true tb = { tb with pendingWord := some (wordOfBits bits) } := by
  have htake : bits.take 33 = bits := List.take_of_length_le (by omega)
  simp [receiveBits, endFraming, hf, htake, h]

/-! ### Labels of timecode words -/

/-- The four fields of a timecode word by arithmetic (R185). -/
theorem labelOfWord_eq (w : BitVec 32) :
    labelOfWord w =
      { h := w.toNat / 134217728, m := w.toNat / 2097152 % 64, s := w.toNat / 32768 % 64,
        f := w.toNat / 1024 % 32 } := by
  have := w.isLt
  simp only [labelOfWord, BitVec.extractLsb'_toNat, Nat.shiftRight_eq_div_pow, Label.mk.injEq,
    Nat.reducePow, and_true]
  omega

/-- The user bits are no part of a label (R185). -/
theorem labelOfWord_congr {w v : BitVec 32} (h : w.toNat / 1024 = v.toNat / 1024) :
    labelOfWord w = labelOfWord v := by
  rw [labelOfWord_eq, labelOfWord_eq, Label.mk.injEq]
  omega

/-- A label's validity at a rate, range by range (R9). -/
theorem validLabel_iff (r : Rate) (l : Label) :
    validLabel r l = true ↔
      l.h < 24 ∧ l.m < 60 ∧ l.s < 60 ∧ l.f < framesPerSecond r ∧
        (r = .fps30drop → ¬((l.f = 0 ∨ l.f = 1) ∧ l.s = 0 ∧ l.m % 10 ≠ 0)) := by
  have hskip : (r != .fps30drop || !skippedLabel l) = true ↔
      (r = .fps30drop → ¬((l.f = 0 ∨ l.f = 1) ∧ l.s = 0 ∧ l.m % 10 ≠ 0)) := by
    cases r <;> simp [skippedLabel]
    omega
  rw [validLabel, Bool.and_eq_true, hskip]
  simp only [Bool.and_eq_true, decide_eq_true_eq, and_assoc]

/-- The same for the rate that a strap selects (R1, R9). -/
theorem validLabel_rateOf_iff (strap : BitVec 2) (l : Label) :
    validLabel (rateOf strap) l = true ↔
      l.h ≤ 23 ∧ l.m ≤ 59 ∧ l.s ≤ 59 ∧
        (if strap = 1 then l.f ≤ 29
         else if strap = 2 then l.f ≤ 29 ∧ ¬((l.f = 0 ∨ l.f = 1) ∧ l.s = 0 ∧ l.m % 10 ≠ 0)
         else l.f ≤ 24) := by
  rw [validLabel_iff, rateOf]
  by_cases h1 : strap = 1
  · simp [h1, framesPerSecond, Nat.lt_succ_iff]
  · by_cases h2 : strap = 2
    · simp [h2, framesPerSecond, Nat.lt_succ_iff]
    · rw [if_neg h1, if_neg h2, if_neg h1, if_neg h2]
      simp [framesPerSecond, Nat.lt_succ_iff]

/-! ### The statements settled -/

/-- Settles O7: the release samples the strap, every other command keeps it, and the table of R1 is
the four straps' values. -/
theorem rateSampledAtRelease : Obligations.RateSampledAtRelease := by
  refine ⟨fun span rate s => ⟨_, rfl, rfl⟩, fun c s t h hc => exec_keeps_rate h hc, ?_, ?_⟩
  · decide
  · decide

/-- Settles O16: validity depends on the label alone, and a word's label on its top 22 bits alone. -/
theorem validTimecodeWords : Obligations.ValidTimecodeWords := by
  refine ⟨fun strap w => ?_, fun strap w v h => by rw [labelOfWord_congr h]⟩
  rw [validLabel_rateOf_iff, labelOfWord_eq]

/-- Settles O9: no internal frame event comes before the edge, and an edge in LOCKED is never
absorbed. -/
theorem lockedEdgeIsFrameEvent : Obligations.LockedEdgeIsFrameEvent := by
  intro s elapsed o d hlow hs hd hle
  have hexec := exec_fpEdge_of_locked o hlow hs hd hle
  have hclock := clockOf_edgeAt o (s.timebase.now + elapsed) s
  rw [edgeAbsorbed_of_not_freewheel _ (by simp [hs])] at hclock
  exact ⟨_, hexec, congrArg Clock.state hclock, congrArg Clock.e hclock,
    congrArg Clock.now hclock, congrArg Clock.deadline hclock⟩

/-- Settles O11, from the next pulse's clock. -/
theorem nextPulseKeepsFreewheel : Obligations.NextPulseKeepsFreewheel := by
  intro s o p hlow hs hp
  have hclock := clockOf_pulseReached o p s
  refine ⟨_, exec_nextPulse o hlow hs hp, by simp [hlow], ?_, congrArg Clock.e hclock,
    congrArg Clock.lastInternal hclock, congrArg Clock.nextPulse hclock,
    pulseReached_freewheelEntries o p s⟩
  exact (congrArg Clock.state hclock).trans hs

/-- Settles O10: an edge after the deadline of its moment only relocks, and one before it is the
frame event itself. -/
theorem deadlineEntersFreewheel : Obligations.DeadlineEntersFreewheel := by
  intro s o d hlow hs hd
  have hclock := clockOf_deadlineReached o d s
  have hstate := congrArg Clock.state hclock
  have he := congrArg Clock.e hclock
  have hlast := congrArg Clock.lastInternal hclock
  have hpulse := congrArg Clock.nextPulse hclock
  obtain ⟨hcount, hraised⟩ := deadlineReached_entry o d s
  refine ⟨_, exec_freewheelDeadline o hlow hs hd, hstate, he, hlast, hpulse,
    congrArg Clock.deadline hclock, hcount, hraised, fun o' => ?_, fun elapsed o' hd' => ?_⟩
  · have hrate : (deadlineReached o d s).rate = s.rate := by simp
    refine ⟨_, exec_fpEdge_at_internal o' (by simp [hlow]) hstate (congrArg Clock.now hclock) hlast
      (hrate ▸ hpulse), rfl, he, rfl, ?_, hcount, hraised⟩
    rw [← hrate]
    rfl
  · have hedge := clockOf_edgeAt o' d s
    rw [edgeAbsorbed_of_not_freewheel _ (by simp [hs])] at hedge
    obtain ⟨hkept, -⟩ := edgeAt_entry o' d s
    exact ⟨_, hd' ▸ exec_fpEdge_of_locked o' hlow hs hd hd'.le, congrArg Clock.state hedge,
      congrArg Clock.e hedge, congrArg Clock.deadline hedge, hkept⟩

/-- Settles O12: the absorb window decides between a frame event and a bare relock, and the moment
of a pulse just made lies inside it. -/
theorem edgeInFreewheelRelocks : Obligations.EdgeInFreewheelRelocks := by
  intro s elapsed o m p hlow hs hl hp hle
  refine ⟨fun hbeyond => ?_, fun hwithin => exec_fpEdge_absorbed o hlow hs hl hp hle hwithin, ?_⟩
  · have hclock := clockOf_edgeAt o (s.timebase.now + elapsed) s
    have htaken : edgeAbsorbed (s.timebase.now + elapsed) s = false := by
      rw [edgeAbsorbed_freewheel _ hs hl]
      exact decide_eq_false (by omega)
    rw [htaken] at hclock
    obtain ⟨hcount, hbit⟩ := edgeAt_entry o (s.timebase.now + elapsed) s
    exact ⟨_, exec_fpEdge_of_freewheel o hlow hs hp hle, congrArg Clock.state hclock,
      congrArg Clock.e hclock, congrArg Clock.nextPulse hclock, congrArg Clock.deadline hclock,
      hcount, hbit⟩
  · have hclock := clockOf_pulseReached o p s
    have hrate : (pulseReached o p s).rate = s.rate := by simp
    exact ⟨_, exec_nextPulse o hlow hs hp, fun o' => ⟨_, exec_fpEdge_at_internal o' (by simp [hlow])
      ((congrArg Clock.state hclock).trans hs) (congrArg Clock.now hclock)
      (congrArg Clock.lastInternal hclock) (hrate ▸ congrArg Clock.nextPulse hclock),
      congrArg Clock.e hclock, rfl⟩⟩

/-- Settles O8: an edge always ends in LOCKED, the deadline and the next pulse do nothing in ABSENT and
never enter it, and every other command but the release keeps the clock. -/
theorem absentUntilFirstEdge : Obligations.AbsentUntilFirstEdge := by
  refine ⟨fun span rate s => ⟨_, rfl, rfl, rfl, rfl, rfl⟩, fun s hs => exec_inert_of_absent hs,
    fun s bits hlow _ hf h32 => ⟨wordOfBits bits, ?_, fun i hi => getLsbD_wordOfBits h32 hi⟩,
    fun s elapsed o hlow hs => ?_, fun c s t h hs href => ?_, fun c s t h hc ht => ?_⟩
  · simp [exec, execTimecodeWord, done, whileReleased, hlow, receiveBits_complete hf h32]
  · have hclock := clockOf_edgeAt o (s.timebase.now + elapsed) s
    rw [edgeAbsorbed_of_not_freewheel _ (by simp [hs])] at hclock
    exact ⟨_, exec_fpEdge_of_absent elapsed o hlow hs, congrArg Clock.state hclock,
      congrArg Clock.e hclock, congrArg Clock.nextPulse hclock, congrArg Clock.deadline hclock⟩
  · cases hc : isRelease c with
    | true => exact absent_of_release h hc
    | false => exact (congrArg Clock.state (exec_keeps_clock h href hc)).trans hs
  · cases href : ofReference c with
    | true => exact absent_of_reference h href ht
    | false => exact (congrArg Clock.state (exec_keeps_clock h href hc)).symm.trans ht

end Sys2Proof.ProgrammeTime
end

section
/-! SUPPORT. Lane records (02_lane_records.md): the address of a ring word, the command that a
complete record is, how a parser follows a write, and the statements of that family settled. -/

namespace Sys2Proof.LaneRecords

open Sys2Proof.Machine Sys2Proof.Expect Sys2Proof.ProgrammeTime

/-! ### Addresses of the span -/

theorem toNat_spanWord {off : Nat} (h : off < 32768) (s : State) :
    (spanWord off s).toNat = s.span.toNat * 32768 + off := by
  have := s.span.isLt
  rw [spanWord, BitVec.toNat_ofNat]
  omega

/-- With RESET high an address of the span is decoded by its span offset alone (R177). -/
theorem windowOf_spanWord {off : Nat} {s : State} (hlow : s.resetLow = false) (h : off < 32768) :
    windowOf (spanWord off s) s = windowAt off := by
  have hspan : (spanWord off s).extractLsb' 15 5 = s.span := by
    apply BitVec.eq_of_toNat_eq
    have := s.span.isLt
    rw [BitVec.extractLsb'_toNat, toNat_spanWord h, Nat.shiftRight_eq_div_pow]
    omega
  have hoff : ((spanWord off s).extractLsb' 0 15).toNat = off := by
    rw [BitVec.extractLsb'_toNat, toNat_spanWord h, Nat.shiftRight_zero]
    omega
  simp [windowOf, hlow, hspan, hoff]

/-- Where a ring lies in the span (section 2.1). -/
theorem ringBase_add_lt {r : Ring} {off : Nat} (h : off < ringWords r) :
    ringBase r + off < 32768 := by
  rcases r with (_ | _) | _ <;> simp only [ringWords, ringBase] at h ⊢ <;> omega

theorem windowAt_ring {r : Ring} {off : Nat} (h : off < ringWords r) :
    windowAt (ringBase r + off) = .ring r off := by
  rcases r with (_ | _) | _ <;> simp only [ringWords, ringBase] at h ⊢
  · rw [windowAt, if_pos (by omega), Nat.zero_add]
  · rw [windowAt, if_neg (by omega), if_pos (by omega), Nat.add_sub_cancel_left]
  · rw [windowAt, if_neg (by omega), if_neg (by omega), if_pos (by omega), Nat.add_sub_cancel_left]

theorem nextOffset_eq_after {r : Ring} {off : Nat} (h : off < ringWords r) :
    nextOffset r off = after r off := by
  have hsize : ringSize r = ringWords r := by cases r <;> rfl
  rw [nextOffset, after, hsize]
  split
  · next hlast => rw [hlast, Nat.mod_self]
  · exact Nat.mod_eq_of_lt (by omega)

/-! ### Fields of a header (R183) -/

theorem laneKind_toNat (w : Word) : (laneKind w).toNat = w.toNat / 4096 := by
  have := w.isLt
  rw [laneKind, BitVec.extractLsb'_toNat, Nat.shiftRight_eq_div_pow]
  omega

theorem laneSentEnd_eq (w : Word) : laneSentEnd w = decide (w.toNat / 2048 % 2 = 1) :=
  Nat.testBit_eq_decide_div_mod_eq

theorem laneAttach_eq (w : Word) : laneAttach w = decide (w.toNat / 1024 % 2 = 1) :=
  Nat.testBit_eq_decide_div_mod_eq

theorem laneLength_eq (w : Word) : laneLength w = BitVec.ofNat 6 (w.toNat % 64) := by
  apply BitVec.eq_of_toNat_eq
  rw [laneLength, BitVec.extractLsb'_toNat, BitVec.toNat_ofNat, Nat.shiftRight_zero]
  omega

theorem laneLength_toNat (w : Word) : (laneLength w).toNat = w.toNat % 64 := by
  rw [laneLength_eq, BitVec.toNat_ofNat]
  omega

theorem directiveCode_toNat (w : Word) : (directiveCode w).toNat = w.toNat / 2048 := by
  have := w.isLt
  rw [directiveCode, BitVec.extractLsb'_toNat, Nat.shiftRight_eq_div_pow]
  omega

theorem directiveCount_toNat (w : Word) : (directiveCount w).toNat = w.toNat / 256 % 8 := by
  rw [directiveCount, BitVec.extractLsb'_toNat, Nat.shiftRight_eq_div_pow]

theorem directiveTag_eq (w : Word) : directiveTag w = BitVec.ofNat 8 (w.toNat % 256) := by
  apply BitVec.eq_of_toNat_eq
  rw [directiveTag, BitVec.extractLsb'_toNat, BitVec.toNat_ofNat, Nat.shiftRight_zero]
  omega

/-- Only a WORD among the lane records has words after its header (R20). -/
theorem wordsFollowing_eq_wordsToCome (r : Ring) (w : Word) :
    wordsFollowing r w = wordsToCome r w := by
  cases r with
  | lane x =>
    have hkind : laneKind w = 1 ↔ w.toNat / 4096 = 1 := by
      rw [← BitVec.toNat_inj, laneKind_toNat]
      rfl
    simp only [wordsFollowing, wordsToCome, hkind, laneLength_toNat]
  | directive => exact directiveCount_toNat w

/-! ### The command that a complete record is (R24) -/

/-- The command of a directive record. -/
def directiveCommand (d : Directive) (tag : Byte) (params : List Word) : Instr :=
  match d with
  | .delay => .delay tag params
  | .lag => .lag tag params
  | .lead => .lead tag params
  | .stale => .stale tag params
  | .slew => .slew tag params
  | .layout => .layout tag params
  | .clear => .clear tag params
  | .handoff => .handoff tag params
  | .flush => .flush tag params
  | .hold => .hold tag params
  | .resume => .resume tag params
  | .snapshot => .snapshot tag params
  | .restoreOpen => .restoreOpen tag params
  | .restoreCommit => .restoreCommit tag params
  | .restoreAbandon => .restoreAbandon tag params
  | .cue => .cue tag params
  | .uncue => .uncue tag params
  | .zeroCounts => .zeroCounts tag params
  | .restart => .restart tag params

theorem exec_directiveCommand (d : Directive) (tag : Byte) (params : List Word) {s : State}
    (hlow : s.resetLow = false) :
    exec (directiveCommand d tag params) s = .next (carryOut d tag params s) := by
  have hexec : exec (directiveCommand d tag params) s =
      done (whileReleased (carryOut d tag params) s) := by cases d <;> rfl
  rw [hexec]
  simp [done, whileReleased, hlow]

/-- A directive record is the command of the directive that its code names. -/
theorem recordCommand_directive (h : Word) (body : List Word) :
    recordCommand .directive h body =
      match directiveOf (directiveCode h) with
      | some d => directiveCommand d (directiveTag h) body
      | none => .unknownDirective (directiveCode h) (directiveTag h) body := by
  simp only [recordCommand, directiveOf, ← directiveCode_toNat, ← directiveTag_eq]
  split <;> simp_all [directiveCommand]

/-- With RESET high a record's command is the record's commit (log 5). -/
theorem exec_recordCommand (r : Ring) (h : Word) (body : List Word) {s : State}
    (hlow : s.resetLow = false) :
    exec (recordCommand r h body) s = .next (commitRecord r h body s) := by
  cases r with
  | lane x =>
    simp only [recordCommand, commitRecord, commitLane, ← laneKind_toNat, ← laneSentEnd_eq,
      ← laneAttach_eq, ← laneLength_eq]
    split <;> simp_all [exec, execWordRecord, execSpeakerRecord, execBreakRecord, execCorrect,
      execUnknownKind, done, whileReleased]
  | directive =>
    rw [recordCommand_directive, commitRecord]
    cases hd : directiveOf (directiveCode h) with
    | some d => simp only [exec_directiveCommand d _ _ hlow, directiveRecord, hd]
    | none => simp [exec, execUnknownDirective, done, whileReleased, hlow]

/-! ### How a parser follows a write (R20 to R22) -/

@[simp] theorem setParser_setParser (r : Ring) (p q : Parser) (s : State) :
    setParser r p (setParser r q s) = setParser r p s := by
  rcases r with (_ | _) | _ <;> rfl

@[simp] theorem written_resetLow (ma : BitVec 20) (w : Word) (s : State) :
    (written ma w s).resetLow = s.resetLow := rfl

@[simp] theorem parserOf_written (r : Ring) (ma : BitVec 20) (w : Word) (s : State) :
    parserOf r (written ma w s) = parserOf r s := by
  rcases r with (_ | _) | _ <;> rfl

/-- A processor write at a ring's offset reaches the SRAM and is followed by the ring's parser
(R178). -/
theorem exec_ringWrite {s : State} {r : Ring} {off : Nat} (w : Word) (hlow : s.resetLow = false)
    (hoff : off < ringWords r) :
    exec (.ringWrite (spanWord (ringBase r + off) s) w) s =
      .next (followWrite r off w (written (spanWord (ringBase r + off) s) w s)) := by
  have hwin : windowOf (spanWord (ringBase r + off) s) s = .ring r off := by
    rw [windowOf_spanWord hlow (ringBase_add_lt hoff), windowAt_ring hoff]
  simp only [exec, execRingWrite, done, busWrite, hwin]
  rfl

/-- A header takes the parser to its own state, whatever it was. -/
theorem takeHeader_setParser (r : Ring) (off : Nat) (w : Word) (p : Parser) (s : State) :
    takeHeader r off w (setParser r p s) = takeHeader r off w s := by
  simp [takeHeader]

theorem followWrite_header {r : Ring} {off : Nat} {s : State} (w : Word)
    (hexp : (parserOf r s).expected = off) (hst : (parserOf r s).staging = none) :
    followWrite r off w s = takeHeader r off w s := by
  simp [followWrite, hexp, hst]

theorem followWrite_body {r : Ring} {off : Nat} {st : Staging} {s : State} (w : Word)
    (hexp : (parserOf r s).expected = off) (hst : (parserOf r s).staging = some st) :
    followWrite r off w s = takeBody r st off w s := by
  simp [followWrite, hexp, hst]

theorem followWrite_discontinuity {r : Ring} {off : Nat} {s : State} (w : Word)
    (hexp : (parserOf r s).expected ≠ off) :
    followWrite r off w s = discontinuity r off w s := by
  simp [followWrite, Ne.symm hexp]

/-- The part after a discontinuity has been counted and raised (R22). -/
def discontinued (s : State) : State :=
  { s with
    counters := { s.counters with discontinuities := up s.counters.discontinuities }
    attention := s.attention ||| 0x02 }

@[simp] theorem discontinued_resetLow (s : State) :
    (discontinued s).resetLow = s.resetLow := rfl

theorem spanWord_setParser_discontinued (off : Nat) (r : Ring) (p : Parser) (s : State) :
    spanWord off (setParser r p (discontinued s)) = spanWord off s := by
  simp [spanWord, discontinued]

theorem discontinued_eq (s : State) :
    discontinued s = raise .ringDiscontinuity (count .discontinuities s) := by
  simp [discontinued, raise, causeBit, count, bumpCounter, countUp_eq_up]

theorem discontinued_setParser (r : Ring) (p : Parser) (s : State) :
    discontinued (setParser r p s) = setParser r p (discontinued s) := by
  rcases r with (_ | _) | _ <;> rfl

theorem written_setParser_discontinued (r : Ring) (p : Parser) (ma : BitVec 20) (w : Word)
    (s : State) :
    written ma w (setParser r p (discontinued s)) =
      setParser r p (discontinued (written ma w s)) := by
  rcases r with (_ | _) | _ <;> rfl

/-- A discontinuity is counted and raised, and its word is a header; the staging record goes with
the parser's old state (R22). -/
theorem discontinuity_eq_takeHeader (r : Ring) (off : Nat) (w : Word) (s : State) :
    discontinuity r off w s = takeHeader r off w (discontinued s) := by
  rw [discontinuity, ← discontinued_eq, discontinued_setParser, takeHeader_setParser]

/-! ### A write at the expected offset -/

/-- A header with no word to come is the command of its record (R20). -/
theorem exec_ringWrite_lone_header {s : State} {r : Ring} {off : Nat} {w : Word}
    (hlow : s.resetLow = false) (hoff : off < ringWords r)
    (hexp : (parserOf r s).expected = off) (hst : (parserOf r s).staging = none)
    (hnone : wordsToCome r w = 0) :
    exec (.ringWrite (spanWord (ringBase r + off) s) w) s =
      exec (recordCommand r w []) (setParser r { expected := after r off, staging := none }
        (written (spanWord (ringBase r + off) s) w s)) := by
  rw [exec_ringWrite w hlow hoff, followWrite_header w (by simpa using hexp) (by simpa using hst),
    exec_recordCommand _ _ _ (by simpa using hlow), takeHeader,
    wordsFollowing_eq_wordsToCome, nextOffset_eq_after hoff, if_pos hnone]

/-- A header with words to come opens a staging record (R20). -/
theorem exec_ringWrite_opening_header {s : State} {r : Ring} {off : Nat} {w : Word}
    (hlow : s.resetLow = false) (hoff : off < ringWords r)
    (hexp : (parserOf r s).expected = off) (hst : (parserOf r s).staging = none)
    (hsome : 0 < wordsToCome r w) :
    exec (.ringWrite (spanWord (ringBase r + off) s) w) s =
      .next (setParser r ⟨after r off, some ⟨w, [], wordsToCome r w, s.timebase.e⟩⟩
        (written (spanWord (ringBase r + off) s) w s)) := by
  rw [exec_ringWrite w hlow hoff, followWrite_header w (by simpa using hexp) (by simpa using hst),
    takeHeader, wordsFollowing_eq_wordsToCome, nextOffset_eq_after hoff, if_neg hsome.ne']
  rfl

/-- The last word to come makes the staging record the command of its header and words (R21). -/
theorem exec_ringWrite_last_word {s : State} {r : Ring} {off : Nat} {st : Staging} (w : Word)
    (hlow : s.resetLow = false) (hoff : off < ringWords r)
    (hexp : (parserOf r s).expected = off) (hst : (parserOf r s).staging = some st)
    (hlast : st.toCome ≤ 1) :
    exec (.ringWrite (spanWord (ringBase r + off) s) w) s =
      exec (recordCommand r st.header (st.body ++ [w]))
        (setParser r { expected := after r off, staging := none }
          (written (spanWord (ringBase r + off) s) w s)) := by
  rw [exec_ringWrite w hlow hoff, followWrite_body w (by simpa using hexp) (by simpa using hst),
    exec_recordCommand _ _ _ (by simpa using hlow), takeBody,
    nextOffset_eq_after hoff, if_pos hlast]

/-- Any other word joins the staging record (R21). -/
theorem exec_ringWrite_inner_word {s : State} {r : Ring} {off : Nat} {st : Staging} (w : Word)
    (hlow : s.resetLow = false) (hoff : off < ringWords r)
    (hexp : (parserOf r s).expected = off) (hst : (parserOf r s).staging = some st)
    (hmore : 1 < st.toCome) :
    exec (.ringWrite (spanWord (ringBase r + off) s) w) s =
      .next (setParser r
        ⟨after r off, some { st with body := st.body ++ [w], toCome := st.toCome - 1 }⟩
        (written (spanWord (ringBase r + off) s) w s)) := by
  rw [exec_ringWrite w hlow hoff, followWrite_body w (by simpa using hexp) (by simpa using hst),
    takeBody, nextOffset_eq_after hoff, if_neg (by omega)]

/-! ### A write away from the expected offset -/

/-- It is the write of a header by a parser that stands at this offset in IDLE, after the
discontinuity has been counted and raised (R22). -/
theorem exec_ringWrite_discontinuity {s : State} {r : Ring} {off : Nat} (w : Word)
    (hlow : s.resetLow = false) (hoff : off < ringWords r)
    (hexp : (parserOf r s).expected ≠ off) :
    exec (.ringWrite (spanWord (ringBase r + off) s) w) s =
      exec (.ringWrite (spanWord (ringBase r + off) s) w)
        (setParser r { expected := off, staging := none } (discontinued s)) := by
  have hidle := exec_ringWrite (r := r) (off := off)
    (s := setParser r { expected := off, staging := none } (discontinued s)) w
    (by simpa using hlow) hoff
  rw [spanWord_setParser_discontinued, written_setParser_discontinued,
    followWrite_header w (by simp) (by simp), takeHeader_setParser] at hidle
  rw [hidle, exec_ringWrite w hlow hoff, followWrite_discontinuity w (by simpa using hexp),
    discontinuity_eq_takeHeader]

/-! ### Empty records (R26) -/

/-- The part after an empty record has been counted. -/
def emptyCounted (s : State) : State :=
  { s with counters := { s.counters with empty := up s.counters.empty } }

theorem count_empty (s : State) : count .empty s = emptyCounted s := by
  simp [count, bumpCounter, countUp_eq_up, emptyCounted]

theorem exec_empty_wordRecord (x : Lane) (sentEnd attach : Bool) (chars : List Word) {s : State}
    (hlow : s.resetLow = false) :
    exec (.wordRecord x sentEnd attach 0 chars) s = .next (emptyCounted s) := by
  simp [exec, execWordRecord, done, whileReleased, hlow, commitWord, count_empty]

theorem exec_empty_correct (x : Lane) {s : State} (hlow : s.resetLow = false) :
    exec (.correct x 0) s = .next (emptyCounted s) := by
  simp [exec, execCorrect, done, whileReleased, hlow, commitCorrect, count_empty]

/-- A header of a WORD or CORRECT of length 0 is a complete record. -/
theorem wordsToCome_of_empty {x : Lane} {w : Word} (hlen : w.toNat % 64 = 0) :
    wordsToCome (.lane x) w = 0 := by
  simp [wordsToCome, hlen]

theorem exec_recordCommand_of_empty {x : Lane} {w : Word} {s : State}
    (hlow : s.resetLow = false) (hkind : w.toNat / 4096 = 1 ∨ w.toNat / 4096 = 4)
    (hlen : w.toNat % 64 = 0) :
    exec (recordCommand (.lane x) w []) s = .next (emptyCounted s) := by
  rcases hkind with hword | hcorrect
  · simp only [recordCommand, hword, hlen]
    exact exec_empty_wordRecord x _ _ [] hlow
  · simp only [recordCommand, hcorrect, hlen]
    exact exec_empty_correct x hlow

/-! ### The statements settled -/

/-- Settles O27: the four writes at the expected offset and the one away from it. -/
theorem ringWritesAreFollowed : Obligations.RingWritesAreFollowed := by
  intro s r off w hlow hoff
  refine ⟨fun hexp hst => ⟨?_, ?_⟩, fun st hexp hst => ⟨?_, ?_⟩, ?_⟩
  · exact exec_ringWrite_lone_header hlow hoff hexp hst
  · exact exec_ringWrite_opening_header hlow hoff hexp hst
  · exact exec_ringWrite_last_word w hlow hoff hexp hst
  · exact exec_ringWrite_inner_word w hlow hoff hexp hst
  · exact exec_ringWrite_discontinuity w hlow hoff

/-- Settles O29: both commands count the empty record and do nothing else, and an empty header in
IDLE is such a command. -/
theorem emptyRecords : Obligations.EmptyRecords := by
  intro s x hlow
  refine ⟨fun sentEnd attach chars => exec_empty_wordRecord x sentEnd attach chars hlow,
    exec_empty_correct x hlow, fun w hkind hlen hst hoff => ?_⟩
  exact (exec_ringWrite_lone_header (r := .lane x) hlow hoff rfl hst
    (wordsToCome_of_empty hlen)).trans
      (exec_recordCommand_of_empty (by simpa using hlow) hkind hlen)

end Sys2Proof.LaneRecords
end

section
/-! SUPPORT. Row composition (05_row_composition.md): the access that a take is and the block it
takes, the end of ZERO_COUNTS, and the statement of that family settled. -/

namespace Sys2Proof.RowComposition

open Sys2Proof.Machine Sys2Proof.Expect Sys2Proof.LaneRecords

/-! ### The access of a take -/

theorem spanAddress_eq_spanWord (off : BitVec 15) (s : State) :
    spanAddress off s = spanWord off.toNat s := by
  apply BitVec.eq_of_toNat_eq
  rw [toNat_spanWord off.isLt, spanAddress, BitVec.toNat_append,
    ← Nat.shiftLeft_add_eq_or_of_lt off.isLt, Nat.shiftLeft_eq]

/-- With RESET high the address of an emission word is decoded as that word (R177, R178). -/
theorem windowOf_emission {s : State} (hlow : s.resetLow = false) (i : BitVec 3) :
    windowOf (spanAddress (emissionOffset i) s) s = .emission i := by
  have hwindow : ∀ j : BitVec 3, windowAt (emissionOffset j).toNat = .emission j := by decide
  rw [spanAddress_eq_spanWord, windowOf_spanWord hlow (emissionOffset i).isLt, hwindow]

/-- The inserter is answered with the word after the take, if its read is one (R116, R118). -/
theorem exec_take_inserter {s : State} (hlow : s.resetLow = false) (i : BitVec 3) :
    exec (.take .inserter i) s =
      .next (answer (emissionWord i (emissionRead .inserter i s))
        (emissionRead .inserter i s)) := by
  simp only [exec, execTake, done, busRead, windowOf_emission hlow]

/-- In a frame with no take the inserter's read of word 0 is the take (R116). -/
theorem emissionRead_of_no_take {s : State} (h : s.emission.take ≠ some s.timebase.e) :
    emissionRead .inserter 0 s = takeBlock s := by
  simp [emissionRead, hasTake, h]

/-- What is taken is the view offered before the take (R120). -/
theorem takeBlock_takenBlock (s : State) :
    (takeBlock s).emission.takenBlock = offeredView s := by
  simp [takeBlock]

/-- So the inserter's first read of word 0 in a frame takes the offered view. -/
theorem exec_first_take {s : State} (hlow : s.resetLow = false)
    (h : s.emission.take ≠ some s.timebase.e) :
    ∃ u, exec (.take .inserter 0) s = .next u ∧ u.emission.takenBlock = offeredView s := by
  refine ⟨_, exec_take_inserter hlow 0, ?_⟩
  rw [emissionRead_of_no_take h]
  exact takeBlock_takenBlock s

/-! ### The first view after the reset pin -/

/-- The view looks at the Emission Unit, the Row Composer, the Timebase and the service alone
(R118, R119). -/
theorem offeredView_congr {s t : State} (hemission : s.emission = t.emission)
    (hcomposer : s.composer = t.composer) (htimebase : s.timebase = t.timebase)
    (hservice : s.service = t.service) : offeredView s = offeredView t := by
  simp only [offeredView, viewHeader, viewCells, viewCount, hemission, hcomposer, htimebase,
    hservice]

/-- After the reset pin it is two cells that announce the window, and the check word (R90). -/
theorem offeredView_reset : offeredView State.reset =
    [0x0400, 0x60F3, 0x7160, 0, 0, 0, 0, 0x29AD] := by decide

/-! ### ZERO_COUNTS -/

/-- A directive that is DONE is only recorded as the last outcome (R148, R149). -/
theorem finishDirective_done (code : BitVec 5) (tag : Byte) (s : State) :
    finishDirective code tag (s, .done) =
      { s with lastOutcome :=
          { tag := tag, code := code, result := .done, stamp := s.timebase.e } } := rfl

/-- ZERO_COUNTS leaves every counter at 0 (R150). -/
theorem carryOut_zeroCounts_counters (tag : Byte) (s : State) :
    (carryOut .zeroCounts tag [] s).counters = Counters.zero := by
  have hjudged : judgeDirective .zeroCounts tag [] s = (zeroCounts s, .done) := rfl
  rw [carryOut, hjudged, finishDirective_done]
  rfl

/-! ### The statement settled -/

/-- Settles O6: the release gives the Row Composer its reset values with no take yet, so the first
take is of the view after the reset pin; ZERO_COUNTS leaves every counter at 0. -/
theorem composerAtRelease : Obligations.ComposerAtRelease := by
  refine ⟨fun span rate s => ?_, fun tag s hlow => ?_⟩
  · refine ⟨_, rfl, rfl, rfl, rfl, rfl, rfl, rfl, ?_⟩
    obtain ⟨u, hexec, htaken⟩ :=
      exec_first_take (s := { State.atRelease span rate with sram := s.sram, pending := s.pending })
        rfl nofun
    exact ⟨u, hexec, htaken.trans ((offeredView_congr rfl rfl rfl rfl).trans offeredView_reset)⟩
  · exact ⟨_, exec_directiveCommand .zeroCounts tag [] hlow,
      congrArg Counters.truncated (carryOut_zeroCounts_counters tag s)⟩

end Sys2Proof.RowComposition
end

section
/-! SUPPORT. Floor and handoff (08_floor_and_handoff.md): the end of a directive's handling, what
the trims of a completed pass do to the whole state, the start of a pass, and HANDOFF's cases
settled. -/

namespace Sys2Proof.FloorAndHandoff

open Sys2Proof.Machine Sys2Proof.Expect Sys2Proof.ProgrammeTime Sys2Proof.LaneRecords

/-! ### The outcome of a directive (R148, R149) -/

/-- Every outcome ends a directive's handling as the statements say. -/
theorem finishDirective_eq_answered (code : BitVec 5) (tag : Byte) (r : Result) (s : State) :
    finishDirective code tag (s, r) = answered code tag r s := by
  cases r <;> simp [finishDirective, settleOutcome, answered, raise, causeBit, count, bumpCounter,
    countUp_eq_up, BitVec.or_assoc]

/-- A record of a named directive with an accepted count ends with its owner's outcome. -/
theorem exec_of_countAccepted {d : Directive} (tag : Byte) {params : List Word} {s t : State}
    {r : Result} (hlow : s.resetLow = false) (hcount : countAccepted d params.length = true)
    (howner : directiveOwner d tag params s = (t, r)) :
    exec (directiveCommand d tag params) s = .next (answered (codeOf d) tag r t) := by
  rw [exec_directiveCommand d tag params hlow, carryOut, judgeDirective, if_pos hcount, howner,
    finishDirective_eq_answered]

/-! ### Discarded tokens (R98) -/

theorem tagDiscarded_eq_dropTag (t : Tag) : tagDiscarded t = dropTag t := by
  cases t <;> rfl

theorem dropTag_dropTag (t : Tag) : dropTag (dropTag t) = dropTag t := by
  cases t <;> rfl

/-- Tokens discarded in two goes leave the stacks as if discarded in one. -/
theorem retagged_dropTag_append (x : Lane) (ids more : List TokenId) (st : List StackEntry) :
    retagged x (ids ++ more) dropTag st = retagged x more dropTag (retagged x ids dropTag st) := by
  simp only [retagged, List.map_map]
  refine List.map_congr_left fun en _ => ?_
  by_cases hfirst : en.id ∈ ids ∧ en.id.lane = x
  · by_cases hmore : en.id ∈ more <;> simp [hfirst, hmore, dropTag_dropTag]
  · by_cases hlane : en.id.lane = x <;> simp_all

theorem noticeDiscarded_eq_noticed (ts : List Token) (s : State) :
    noticeDiscarded ts s = noticed (ts.map (·.id)) dropTag s := by
  have hframe := noticeDiscarded_frame ts s
  have ha := laneOf_noticeDiscarded ts .a s
  have hb := laneOf_noticeDiscarded ts .b s
  generalize noticeDiscarded ts s = t at hframe ha hb ⊢
  cases t
  simp_all [noticed, retagged, tagDiscarded_eq_dropTag]

/-! ### Counting (R150) -/

theorem upBy_zero (w : Word) : upBy 0 w = w := by
  have := w.isLt
  apply BitVec.eq_of_toNat_eq
  simp only [upBy, BitVec.toNat_ofNat]
  omega

theorem upBy_upBy (m n : Nat) (w : Word) : upBy n (upBy m w) = upBy (m + n) w := by
  apply BitVec.eq_of_toNat_eq
  simp only [upBy, BitVec.toNat_ofNat]
  omega

theorem countTimes_trimmed (n : Nat) (s : State) :
    countTimes .trimmed n s =
      { s with counters := { s.counters with trimmed := upBy n s.counters.trimmed } } := by
  induction n generalizing s with
  | zero => rw [upBy_zero, countTimes]
  | succ n ih =>
    simp [countTimes, ih, count, bumpCounter, countUp_eq_up, up, upBy_upBy, Nat.add_comm]

/-! ### Completing a pass (R138, R139) -/

/-- Trimmed tokens take DROPPED on their stacks and are counted, and nothing else happens. -/
theorem trimTokens_eq (ts : List Token) (s : State) :
    trimTokens ts s = { noticed (ts.map (·.id)) dropTag s with
      counters := { s.counters with trimmed := upBy ts.length s.counters.trimmed } } := by
  rw [trimTokens, countTimes_trimmed, noticeDiscarded_eq_noticed]
  rfl

/-- Two trims, one after the other, are one trim of the tokens of both. -/
theorem trimTokens_append (ts us : List Token) (s : State) :
    trimTokens (ts ++ us) s = trimTokens us (trimTokens ts s) := by
  simp [trimTokens_eq, noticed, retagged_dropTag_append, upBy_upBy]

theorem trimTokens_setQueue (ts : List Token) (x : Lane) (q : List Token) (s : State) :
    trimTokens ts (setQueue x q s) = setQueue x q (trimTokens ts s) := by
  rw [trimTokens_eq, trimTokens_eq]
  cases x <;> rfl

@[simp] theorem laneOf_trimTokens_queue (ts : List Token) (x : Lane) (s : State) :
    (laneOf x (trimTokens ts s)).queue = (laneOf x s).queue := by
  rw [trimTokens_eq]
  cases x <;> rfl

/-- The completion the statements describe is one trim of both queues' lost tokens: all of the old
floor lane's, and those of the other lane that do not survive (R138, R139). -/
theorem passed_eq_trimTokens (x : Lane) (s : State) :
    passed x s =
      { setQueue (otherLane x)
          ((laneOf (otherLane x) s).queue.filter (survivesTrim s.retiming.speechTail))
          (setQueue x [] (trimTokens
            ((laneOf x s).queue ++ (laneOf (otherLane x) s).queue.filter
              fun t => !survivesTrim s.retiming.speechTail t) s)) with
        floor := { state := floorOf (otherLane x), timer := 0 } } := by
  rw [trimTokens_eq, passed]
  cases x <;> cases s.retiming.speechTail <;> rfl

/-- The model trims the two queues one after the other. -/
theorem completePass_eq_passed (x : Lane) (s : State) : completePass x s = passed x s := by
  have hqueue : (laneOf (otherLane x) (setQueue x [] (trimTokens (laneOf x s).queue s))).queue =
      (laneOf (otherLane x) s).queue := by
    simp [setQueue]
  have htail : (setQueue x [] (trimTokens (laneOf x s).queue s)).retiming = s.retiming := by simp
  rw [passed_eq_trimTokens, trimTokens_append, completePass]
  simp only [hqueue, htail, trimTokens_setQueue]

/-- The trims do not look at the floor state that the completion ends. -/
theorem passed_floor (x : Lane) (f : Floor) (s : State) :
    passed x { s with floor := f } = passed x s := by
  cases x <;> rfl

/-! ### The start of a pass (R134) -/

theorem startPass_zero (x : Lane) (s : State) :
    startPass x 0 s = admissionRun (passed x s) := by
  rw [startPass, if_pos rfl, completePassAndAdmit, completePass_eq_passed, passed_floor]

theorem startPass_of_pos (x : Lane) {wait : Nat} (h : 0 < wait) (s : State) :
    startPass x wait s = { s with floor := { state := passingFrom x, timer := wait } } := by
  rw [startPass, if_neg h.ne']

/-! ### HANDOFF's cases (R133) -/

theorem laneOfWord_eq_none {n : Word} (h : 1 < n.toNat) : laneOfWord n = none := by
  have hzero : n ≠ 0 := by rintro rfl; contradiction
  have hone : n ≠ 1 := by rintro rfl; contradiction
  rw [laneOfWord, if_neg hzero, if_neg hone]

theorem laneOfWord_eq_some {n : Word} (h : ¬ 1 < n.toNat) :
    laneOfWord n = some (laneNamed n.toNat) := by
  have hn : n = 0 ∨ n = 1 := by bv_omega
  rcases hn with rfl | rfl <;> rfl

/-- A lane other than 0 and 1 is RANGE. -/
theorem handoff_of_range {n : Word} (h : 1 < n.toNat) (w : Word) (s : State) :
    handoff n w s = (s, .range) := by
  rw [handoff, laneOfWord_eq_none h]

/-- In a pass the wait is not examined: the floor lane named cancels it, its target is BUSY. -/
theorem handoff_of_passing {n : Word} (h : ¬ 1 < n.toNat) (w : Word) {s : State}
    (hpass : passTarget s.floor.state ≠ none) :
    handoff n w s =
      if laneNamed n.toNat = floorLane s.floor.state then
        ({ s with floor := { state := floorOf (floorLane s.floor.state), timer := 0 } }, .done)
      else (s, .busy) := by
  obtain ⟨y, hy⟩ := Option.ne_none_iff_exists'.mp hpass
  simp only [handoff, laneOfWord_eq_some h, hy]

/-- Without one, the floor lane named is SAME. -/
theorem handoff_of_same {n : Word} (h : ¬ 1 < n.toNat) (w : Word) {s : State}
    (hpass : passTarget s.floor.state = none)
    (hsame : laneNamed n.toNat = floorLane s.floor.state) :
    handoff n w s = (s, .same) := by
  simp only [handoff, laneOfWord_eq_some h, hpass, if_pos hsame]

/-- Else a pass starts with the wait cut to 250. -/
theorem handoff_of_other {n : Word} (h : ¬ 1 < n.toNat) (w : Word) {s : State}
    (hpass : passTarget s.floor.state = none)
    (hother : laneNamed n.toNat ≠ floorLane s.floor.state) :
    handoff n w s =
      (startPass (floorLane s.floor.state) (min w.toNat 250) s, clampedTo 250 w) := by
  simp only [handoff, laneOfWord_eq_some h, hpass, if_neg hother, clampedTo]
  split
  · next hle => rw [min_eq_left hle]
  · next hgt => rw [min_eq_right (by omega)]

/-! ### The statement settled -/

/-- Settles O48: a HANDOFF ends with Floor Control's outcome, and R133's cases are taken in their
order; a pass started with a wait of 0 is completed at once. -/
theorem handoffCases : Obligations.HandoffCases := by
  intro s tag n w hlow x
  have hexec {t : State} {r : Result} (howner : handoff n w s = (t, r)) :
      exec (.handoff tag [n, w]) s = .next (answered 0x08 tag r t) :=
    exec_of_countAccepted (d := .handoff) tag hlow rfl howner
  split_ifs with hrange hpass hnamed hnamed hwait
  · exact hexec (handoff_of_range hrange w s)
  · exact hexec ((handoff_of_passing hrange w hpass).trans (if_pos hnamed))
  · exact hexec ((handoff_of_passing hrange w hpass).trans (if_neg hnamed))
  · exact hexec (handoff_of_same hrange w (not_not.mp hpass) hnamed)
  · have hstart := handoff_of_other hrange w (not_not.mp hpass) hnamed
    rw [clampedTo, hwait, Nat.zero_min, startPass_zero] at hstart
    exact hexec hstart
  · have hstart := handoff_of_other hrange w (not_not.mp hpass) hnamed
    rw [startPass_of_pos _ (by omega)] at hstart
    exact hexec hstart

end Sys2Proof.FloorAndHandoff
end

section
/-! SUPPORT. Hold, snapshot and restore (10_hold_snapshot_and_restore.md): the two ends of a restore
fill, what a write to the restore port does to the image buffer, and the statement settled. -/

namespace Sys2Proof.HoldAndRestore

open Sys2Proof.Machine Sys2Proof.Expect Sys2Proof.LaneRecords Sys2Proof.RowComposition
  Sys2Proof.FloorAndHandoff

/-! ### The ends of a fill (R171, R172) -/

theorem openRestore_of_run {s : State} (h : s.service = .run) : openRestore s = (s, .state) := by
  simp only [openRestore, h]

/-- A fill starts empty, whatever the buffer held. -/
theorem openRestore_of_held {s : State} (h : s.service = .held) :
    openRestore s = ({ s with image :=
      { state := .filling, words := [], readPos := 0, overfilled := false } }, .done) := by
  simp only [openRestore, h]
  rfl

theorem abandonRestore_of_filling {s : State} (h : s.image.state = .filling) :
    abandonRestore s = ({ s with image :=
      { state := .empty, words := [], readPos := 0, overfilled := false } }, .done) :=
  if_pos h

theorem abandonRestore_of_not_filling {s : State} (h : s.image.state ≠ .filling) :
    abandonRestore s = (s, .state) :=
  if_neg h

/-! ### Collecting a word (R171) -/

theorem collectWord_of_not_filling (w : Word) {b : ImageBuffer} (h : b.state ≠ .filling) :
    collectWord w b = b := by
  unfold collectWord
  split
  · next hfilling => exact absurd hfilling h
  · rfl
  · rfl

/-- Up to the buffer's 4608 words the word is appended. -/
theorem collectWord_of_room (w : Word) {b : ImageBuffer} (h : b.state = .filling)
    (hroom : b.words.length < 4608) : collectWord w b = { b with words := b.words ++ [w] } := by
  simp only [collectWord, h, if_neg (Nat.not_le.mpr hroom)]

/-- A full buffer keeps its words and is marked. -/
theorem collectWord_of_full (w : Word) {b : ImageBuffer} (h : b.state = .filling)
    (hfull : ¬ b.words.length < 4608) : collectWord w b = { b with overfilled := true } := by
  simp only [collectWord, h, if_pos (Nat.not_lt.mp hfull)]

/-! ### A write to the restore port (R178, R179) -/

/-- With RESET high the port's address is decoded as the port (R177). -/
theorem windowOf_restorePort {s : State} (hlow : s.resetLow = false) :
    windowOf (spanWord 0x2451 s) s = .restorePort := by
  rw [windowOf_spanWord hlow (by decide)]
  rfl

theorem exec_restorePortWrite (q : Requester) (w : Word) (s : State) :
    exec (.restorePortWrite q w) s = .next (busWrite q (spanWord 0x2451 s) w s) :=
  congrArg (fun ma => Host.Outcome.next (busWrite q ma w s))
    (spanAddress_eq_spanWord restoreOffset s)

/-- The inserter's write to any address is only passed to the SRAM. -/
theorem busWrite_inserter (ma : BitVec 20) (w : Word) (s : State) :
    busWrite .inserter ma w s = written ma w s := rfl

/-- The processor's write to the port is handed to the buffer as well. -/
theorem busWrite_processor_restorePort (w : Word) {s : State} (hlow : s.resetLow = false) :
    busWrite .processor (spanWord 0x2451 s) w s =
      written (spanWord 0x2451 s) w { s with image := collectWord w s.image } := by
  simp only [busWrite, windowOf_restorePort hlow]
  rfl

/-! ### The statement settled -/

/-- Settles O44: a fill opens and is abandoned with its owner's outcome; a write to the restore port
reaches the SRAM, and the processor's is collected as the buffer's state and its room say. -/
theorem restoreFill : Obligations.RestoreFill := by
  intro s tag hlow
  refine ⟨fun hrun => ?_, fun hheld => ?_, fun hfilling => ?_, fun hother => ?_, fun w => ?_,
    fun w => ?_⟩
  · exact exec_of_countAccepted (d := .restoreOpen) tag hlow rfl (openRestore_of_run hrun)
  · exact exec_of_countAccepted (d := .restoreOpen) tag hlow rfl (openRestore_of_held hheld)
  · exact exec_of_countAccepted (d := .restoreAbandon) tag hlow rfl
      (abandonRestore_of_filling hfilling)
  · exact exec_of_countAccepted (d := .restoreAbandon) tag hlow rfl
      (abandonRestore_of_not_filling hother)
  · rw [exec_restorePortWrite, busWrite_inserter]
  · rw [exec_restorePortWrite, busWrite_processor_restorePort w hlow]
    split_ifs with hother hroom
    · rw [collectWord_of_not_filling w hother]
    · rw [collectWord_of_room w (not_not.mp hother) hroom]
    · rw [collectWord_of_full w (not_not.mp hother) hroom]

end Sys2Proof.HoldAndRestore
end

section
/-! SUPPORT. Commands and accesses (95_what_each_step_holds.md, 11_span_signals_and_formats.md): the
queue of commands, the reset pin, and the reads and writes of the memory port, settled. -/

namespace Sys2Proof.Accesses

open Sys2Proof.Machine Sys2Proof.Expect Sys2Proof.ProgrammeTime Sys2Proof.LaneRecords
  Sys2Proof.RowComposition Sys2Proof.HoldAndRestore

/-! ### Every command answers a next state -/

@[simp] theorem reachDeadline_pending (o : FrameOrder) (s : State) :
    (reachDeadline o s).pending = s.pending := by
  unfold reachDeadline
  split <;> simp

@[simp] theorem reachPulse_pending (o : FrameOrder) (s : State) :
    (reachPulse o s).pending = s.pending := by
  unfold reachPulse
  split <;> simp

/-- The state that a command answers. -/
theorem exec_eq_next (c : Instr) (s : State) : ∃ t, exec c s = .next t := by
  cases c <;> exact ⟨_, rfl⟩

/-- No command touches those that wait (log 22). -/
theorem exec_keeps_pending {c : Instr} {s t : State} (h : exec c s = .next t) :
    t.pending = s.pending := by
  cases c with
  | resetAssert | resetRelease => rw [eq_of_done h]
  | slewTick | passTimerExpiry =>
    rw [eq_of_done h]
    exact whileReleased_keeps (·.pending)
      (outsideAbsent_keeps (·.pending) (by split <;> simp))
  | recordStall | cueFire =>
    rw [eq_of_done h]
    exact whileReleased_keeps (·.pending) (outsideAbsent_keeps (·.pending) (by simp))
  | ringWrite | passedWrite | restorePortWrite | take | reread | attentionSummaryRead
  | latchedLowRead | contextPortRead =>
    rw [eq_of_done h]
    simp
  | _ =>
    rw [eq_of_done h]
    exact whileReleased_keeps (·.pending) (by simp)

/-- Settles O1: both clauses are the two cases of a step. -/
theorem stepRunsFrontCommand : Obligations.StepRunsFrontCommand := by
  refine ⟨fun c rest s => rfl, fun s hs => ?_⟩
  rw [step, hs]

/-- Settles O2. -/
theorem everyCommandCompletes : Obligations.EveryCommandCompletes := by
  intro c s
  obtain ⟨t, ht⟩ := exec_eq_next c s
  exact ⟨t, ht, exec_keeps_pending ht⟩

/-! ### The reset pin -/

/-- Settles O3: the meaning of RESET_ASSERT is this state. -/
theorem resetAssertGivesUpReception : Obligations.ResetAssertGivesUpReception :=
  fun _ => rfl

/-- Settles O5: the reset values of every block, written out. -/
theorem resetReleaseLeaves : Obligations.ResetReleaseLeaves :=
  fun _ _ _ => rfl

/-- While RESET is low no address lies in a window (R180). -/
theorem windowOf_of_resetLow {s : State} (h : s.resetLow = true) (ma : BitVec 20) :
    windowOf ma s = .plain := by
  simp [windowOf, h]

/-- A write to no window is only passed (R178). -/
theorem busWrite_plain (q : Requester) {ma : BitVec 20} (w : Word) {s : State}
    (h : windowOf ma s = .plain) : busWrite q ma w s = written ma w s := by
  cases q <;> simp only [busWrite, h] <;> rfl

/-- So is a read of no window. -/
theorem busRead_plain (q : Requester) {ma : BitVec 20} {s : State}
    (h : windowOf ma s = .plain) : busRead q ma s = fetched ma s := by
  cases q <;> simp only [busRead, h] <;> rfl

theorem emissionOffset_toNat (i : BitVec 3) : (emissionOffset i).toNat = 0x2400 + i.toNat := by
  revert i; decide

theorem reportOffset_toNat (n : BitVec 6) : (reportOffset n).toNat = 0x2410 + n.toNat := by
  revert n; decide

theorem exec_take (q : Requester) (i : BitVec 3) (s : State) :
    exec (.take q i) s = .next (busRead q (spanWord (0x2400 + i.toNat) s) s) := by
  rw [← emissionOffset_toNat, ← spanAddress_eq_spanWord]
  rfl

theorem exec_reread (q : Requester) (i : BitVec 3) (s : State) :
    exec (.reread q i) s = .next (busRead q (spanWord (0x2400 + i.toNat) s) s) :=
  exec_take q i s

theorem exec_latchedLowRead (q : Requester) (n : BitVec 6) (s : State) :
    exec (.latchedLowRead q n) s = .next (busRead q (spanWord (0x2410 + n.toNat) s) s) := by
  rw [← reportOffset_toNat, ← spanAddress_eq_spanWord]
  rfl

theorem exec_attentionSummaryRead (q : Requester) (s : State) :
    exec (.attentionSummaryRead q) s = .next (busRead q (spanWord 0x2410 s) s) :=
  exec_latchedLowRead q 0 s

theorem exec_contextPortRead (q : Requester) (s : State) :
    exec (.contextPortRead q) s = .next (busRead q (spanWord 0x2450 s) s) :=
  congrArg (fun ma => Host.Outcome.next (busRead q ma s)) (spanAddress_eq_spanWord contextOffset s)

/-- While RESET is low a command that is no access and does not move RESET does nothing (R180,
log 8). -/
theorem exec_inert_of_resetLow {c : Instr} {s : State} (h : s.resetLow = true)
    (hc : isAccessOrReset c = false) : exec c s = .next s := by
  have hinert : ∀ f : State → State, done (whileReleased f s) = .next s := fun f => by
    simp [done, whileReleased, h]
  cases c with
  | resetAssert | resetRelease | ringWrite | passedWrite | restorePortWrite | take | reread
  | attentionSummaryRead | latchedLowRead | contextPortRead => cases hc
  | _ => exact hinert _

/-- Settles O4: no address has a window while RESET is low, and every other command waits for it to be
high. -/
theorem resetLowOnlyPassesAccesses : Obligations.ResetLowOnlyPassesAccesses := by
  intro s hlow
  have hplain := windowOf_of_resetLow hlow
  refine ⟨fun ma w => ?_, fun q ma w => ?_, fun q w => ?_, fun q i => ?_, fun q i => ?_, fun q => ?_,
    fun q i => ?_, fun q => ?_, fun c hc => exec_inert_of_resetLow hlow hc, by simp [alertLow, hlow]⟩
  · exact congrArg Host.Outcome.next (busWrite_plain .processor w (hplain ma))
  · exact congrArg Host.Outcome.next (busWrite_plain q w (hplain ma))
  · rw [exec_restorePortWrite, busWrite_plain q w (hplain _)]
  · rw [exec_take, busRead_plain q (hplain _)]
  · rw [exec_reread, busRead_plain q (hplain _)]
  · rw [exec_attentionSummaryRead, busRead_plain q (hplain _)]
  · rw [exec_latchedLowRead, busRead_plain q (hplain _)]
  · rw [exec_contextPortRead, busRead_plain q (hplain _)]

/-! ### Writes (R178, R179) -/

/-- An address outside the span, or in it behind the rings and off the restore port, is watched by no
block that follows writes. -/
theorem busWrite_unwatched {ma : BitVec 20} (w : Word) {s : State}
    (h : ma.toNat / 32768 ≠ s.span.toNat ∨
      (0x2400 ≤ ma.toNat % 32768 ∧ ma.toNat % 32768 ≠ 0x2451)) :
    busWrite .processor ma w s = written ma w s := by
  have hoff : (ma.extractLsb' 0 15).toNat = ma.toNat % 32768 := by
    rw [BitVec.extractLsb'_toNat, Nat.shiftRight_zero]
  have hspan : (ma.extractLsb' 15 5).toNat = ma.toNat / 32768 := by
    have := ma.isLt
    rw [BitVec.extractLsb'_toNat, Nat.shiftRight_eq_div_pow]
    omega
  rcases h with hout | ⟨hring, hport⟩
  · refine busWrite_plain .processor w ?_
    rw [windowOf, if_pos]
    exact .inr fun heq => hout (hspan ▸ congrArg BitVec.toNat heq)
  · have hwindow : ∀ win, windowOf ma s = win →
        (∀ r off, win ≠ .ring r off) ∧ win ≠ .restorePort := by
      rintro win rfl
      rw [windowOf, hoff]
      split
      · exact ⟨nofun, nofun⟩
      · unfold windowAt
        rw [if_neg (by omega), if_neg (by omega), if_neg (by omega)]
        (repeat' split) <;> exact ⟨nofun, nofun⟩
    obtain ⟨hnoring, hnoport⟩ := hwindow _ rfl
    unfold busWrite
    dsimp only
    split
    · next heq => exact absurd heq (hnoring _ _)
    · next heq => exact absurd heq hnoport
    · rfl

/-- Every write shows itself on the SRAM's strobes; following it touches the bus no more (R179). -/
theorem busWrite_busOut (q : Requester) (ma : BitVec 20) (w : Word) (s : State) :
    (busWrite q ma w s).busOut = .passedWrite := by
  unfold busWrite
  dsimp only
  split
  · simp [passWrite]
  · rfl
  · rfl

theorem read_busWrite_bitVec {s : State} (hs : Safety.SramHolds s) (q : Requester) (ma : BitVec 20)
    (w : Word) (a : BitVec 20) :
    Memory.read (busWrite q ma w s).sram a.toNat = if a = ma then w else Memory.read s.sram a.toNat := by
  simp only [read_busWrite q ma w s _ hs, BitVec.toNat_inj]

/-- Settles O28: a write that no block watches is only passed, and every write access puts its word into
the SRAM. -/
theorem writesReachTheSram : Obligations.WritesReachTheSram := by
  refine fun s => ⟨fun q ma w h => congrArg Host.Outcome.next ?_, fun ma w => rfl,
    fun hs q ma w => ⟨_, rfl, busWrite_busOut q ma w s, read_busWrite_bitVec hs q ma w⟩,
    fun hs q w => ⟨_, exec_restorePortWrite q w s, busWrite_busOut _ _ _ _,
      read_busWrite_bitVec hs q _ w⟩⟩
  cases q with
  | inserter => rfl
  | processor => exact busWrite_unwatched w (h.resolve_left nofun)

end Sys2Proof.Accesses
end

section
/-! SUPPORT. Words as numbers (00_scope.md 4.1, 11_span_signals_and_formats.md): fields put together
and taken apart, halves of an E value, sums. -/

namespace Sys2Proof.Words

open Sys2Proof.Machine Sys2Proof.Expect

/-- The first of two fields put together counts in units of the second's range. -/
theorem toNat_append {m n : Nat} (x : BitVec m) (y : BitVec n) :
    (x ++ y).toNat = x.toNat * 2 ^ n + y.toNat := by
  rw [BitVec.toNat_append, ← Nat.shiftLeft_add_eq_or_of_lt y.isLt, Nat.shiftLeft_eq]

theorem toNat_ofBool (b : Bool) : (BitVec.ofBool b).toNat = b.toNat := by
  cases b <;> rfl

theorem lowWord_eq (f : Frame) : lowWord f = BitVec.ofNat 16 (f.toNat % 65536) := by
  apply BitVec.eq_of_toNat_eq
  rw [lowWord, BitVec.extractLsb'_toNat, BitVec.toNat_ofNat, Nat.shiftRight_zero]
  omega

theorem highWord_eq (f : Frame) : highWord f = halves f := by
  apply BitVec.eq_of_toNat_eq
  rw [highWord, halves, BitVec.extractLsb'_toNat, BitVec.toNat_ofNat, Nat.shiftRight_eq_div_pow]

/-- A sum of words is the sum of their numbers, modulo 65536 (R119, R169). -/
theorem foldl_add_toNat (ws : List Word) (w : Word) :
    (ws.foldl (· + ·) w).toNat = (w.toNat + (ws.map (·.toNat)).sum) % 65536 := by
  induction ws generalizing w with
  | nil => simpa using (Nat.mod_eq_of_lt w.isLt).symm
  | cons v rest ih =>
    rw [List.foldl_cons, ih, BitVec.toNat_add, List.map_cons, List.sum_cons]
    omega

theorem wordSum_toNat (ws : List Word) :
    (wordSum ws).toNat = (ws.map (·.toNat)).sum % 65536 := by
  simp [wordSum, foldl_add_toNat]

theorem checkWord_eq (ws : List Word) :
    checkWord ws = BitVec.ofNat 16 (65536 - (ws.map (·.toNat)).sum % 65536) := by
  apply BitVec.eq_of_toNat_eq
  rw [checkWord, BitVec.toNat_neg, wordSum_toNat, BitVec.toNat_ofNat]

/-- Words with their check word sum to 0. -/
theorem sum_append_checkWord (ws : List Word) :
    ((ws ++ [checkWord ws]).map (·.toNat)).sum % 65536 = 0 := by
  rw [checkWord_eq, List.map_append, List.sum_append, List.map_singleton, List.sum_singleton,
    BitVec.toNat_ofNat]
  omega

end Sys2Proof.Words
end

section
/-! SUPPORT. Reads of the memory port: the block offered (07_emission.md), the report window and the
context port (10_hold_snapshot_and_restore.md, 11_span_signals_and_formats.md), settled. -/

namespace Sys2Proof.Accesses

open Sys2Proof.Machine Sys2Proof.Expect Sys2Proof.ProgrammeTime Sys2Proof.LaneRecords
  Sys2Proof.RowComposition Sys2Proof.HoldAndRestore Sys2Proof.Words

/-! ### The block offered (R118, R119) -/

theorem cellWord_eq (c : Cell) : cellWord c = BitVec.ofNat 16 (cellNumber c) := by
  cases c <;> rfl

theorem viewHeader_eq (s : State) : viewHeader s = blockHeader s := by
  have hseq := s.emission.blockSeq.isLt
  have hheld : (s.service == .held).toNat * 256 = if s.service = .held then 256 else 0 := by
    cases s.service <;> rfl
  have hwheel : (s.timebase.state == .freewheel).toNat * 128 =
      if s.timebase.state = .freewheel then 128 else 0 := by
    cases s.timebase.state <;> rfl
  have hcarry : s.emission.carry.toNat * 64 = if s.emission.carry then 64 else 0 := by
    cases s.emission.carry <;> rfl
  apply BitVec.eq_of_toNat_eq
  simp only [viewHeader, blockHeader, viewCount, toNat_append, toNat_ofBool, BitVec.toNat_ofNat,
    BitVec.extractLsb'_toNat, Nat.shiftRight_zero, ← hheld, ← hwheel, ← hcarry]
  have h1 := Bool.toNat_le (s.service == .held)
  have h2 := Bool.toNat_le (s.timebase.state == .freewheel)
  have h3 := Bool.toNat_le s.emission.carry
  omega

/-- Words 1 to 6 are the front of the queue, padded with NULL (R118). -/
theorem viewCells_eq (s : State) :
    viewCells s = [blockCell 1 s, blockCell 2 s, blockCell 3 s, blockCell 4 s, blockCell 5 s,
      blockCell 6 s] := by
  have hlength : (viewCells s).length = 6 := by
    simp only [viewCells, viewCount, List.length_append, List.length_map, List.length_take,
      List.length_replicate]
    omega
  have hword : ∀ i < 6, (viewCells s)[i]? = some (blockCell (i + 1) s) := by
    intro i hi
    rw [viewCells, viewCount, blockCell, List.getElem?_append, Nat.add_sub_cancel]
    simp only [List.length_map, List.length_take]
    split
    · next hlt =>
      rw [List.getElem?_map, List.getElem?_take_of_lt hi,
        List.getElem?_eq_getElem (by omega), Option.map_some, cellWord_eq]
    · next hge =>
      rw [List.getElem?_replicate, if_pos (by omega), List.getElem?_eq_none (by omega)]
      rfl
  apply List.ext_getElem?
  intro i
  rcases Nat.lt_or_ge i 6 with hi | hi
  · rw [hword i hi]
    interval_cases i <;> rfl
  · rw [List.getElem?_eq_none (by omega), List.getElem?_eq_none (by simpa using hi)]

theorem offeredView_eq_block (s : State) : offeredView s = block s := by
  rw [offeredView, block, viewHeader_eq, viewCells_eq, checkWord_eq]

/-! ### Reads of the emission window (R116, R122, R123) -/

theorem windowOf_emissionWord {s : State} (hlow : s.resetLow = false) (i : BitVec 3) :
    windowOf (spanWord (0x2400 + i.toNat) s) s = .emission i := by
  rw [← emissionOffset_toNat, ← spanAddress_eq_spanWord, windowOf_emission hlow]

/-- The word that a read answers is that of the taken block, or of the block offered (R118, R122). -/
theorem emissionWord_eq (i : BitVec 3) (s : State) :
    emissionWord i s =
      (if s.emission.take = some s.timebase.e then s.emission.takenBlock else block s).getD
        i.toNat 0 := by
  simp only [emissionWord, hasTake, beq_iff_eq, offeredView_eq_block]

/-- A read of an emission word answers it after the take, if the read is one (R116). -/
theorem busRead_emission (q : Requester) {s : State} (hlow : s.resetLow = false) (i : BitVec 3) :
    busRead q (spanWord (0x2400 + i.toNat) s) s =
      answer (emissionWord i (emissionRead q i s)) (emissionRead q i s) := by
  cases q with
  | inserter => simp only [busRead, windowOf_emissionWord hlow]
  | processor =>
    simp only [busRead, windowOf_emissionWord hlow]
    rfl

/-- Settles O41: a read of the emission window changes the part only as the inserter's of word 0. -/
theorem otherEmissionReads : Obligations.OtherEmissionReads := by
  refine fun s hlow => ⟨fun htake => ?_, fun q i hq => ?_, fun q i => rfl⟩
  · have hread : emissionRead .inserter 0 s = count .rereads s := by
      simp [emissionRead, hasTake, htake]
    have hexec := busRead_emission .inserter hlow 0
    rw [hread, emissionWord_eq] at hexec
    refine (exec_reread .inserter 0 s).trans (congrArg Host.Outcome.next (hexec.trans ?_))
    simp [answer, count, bumpCounter, countUp_eq_up, htake]
  · rw [exec_reread, busRead_emission q hlow, ← emissionWord_eq]
    cases q with
    | processor => rfl
    | inserter =>
      have hread : emissionRead .inserter i s = s := if_pos (hq.resolve_left nofun)
      rw [hread]
      rfl

/-! ### The report window (R17, R71, R181, R182) -/

theorem windowOf_reportWord {s : State} (hlow : s.resetLow = false) (n : BitVec 6) :
    windowOf (spanWord (0x2410 + n.toNat) s) s = .report n := by
  have hwindow : ∀ m : BitVec 6, windowAt (0x2410 + m.toNat) = .report m := by decide
  have := n.isLt
  rw [windowOf_spanWord hlow (by omega), hwindow]

/-- A processor's read of a report word answers the word as it stands and changes what it changes. -/
theorem busRead_report_processor {s : State} (hlow : s.resetLow = false) (n : BitVec 6) :
    busRead .processor (spanWord (0x2410 + n.toNat) s) s =
      answer (reportWord n s) (reportRead n s) := by
  simp only [busRead, windowOf_reportWord hlow]

theorem busRead_report_inserter {s : State} (hlow : s.resetLow = false) (n : BitVec 6) :
    busRead .inserter (spanWord (0x2410 + n.toNat) s) s = answer 0 s := by
  simp only [busRead, windowOf_reportWord hlow]

theorem headSpeech_eq (s : State) : headSpeech s = headS s := by
  unfold headSpeech headS
  cases s.schedule <;> rfl

/-- A token's due is the due frame of the statements (R48). -/
theorem dueFrame_eq (r : Retiming) (speech arrival : Frame) :
    dueFrame r speech arrival = dueAt r speech arrival := by
  have hprecedes : ∀ a b : Frame,
      precedes a b = true ↔ 1 ≤ (b - a).toNat ∧ (b - a).toNat < 2147483648 := by
    simp [precedes, Nat.lt_succ_iff]
  simp only [dueFrame, dueAt, frames, hprecedes]

theorem tokenDue_eq (t : Token) (s : State) : tokenDue t s = dueOf t s :=
  dueFrame_eq _ _ _

theorem headDue_eq (s : State) : headDue s = headD s := by
  unfold headDue headD
  cases s.schedule with
  | nil => rfl
  | cons t rest => exact tokenDue_eq t s

theorem headHigh_eq (latch : Word) (s : State) :
    headHigh latch s = BitVec.ofNat 16 (highRead latch s) := by
  unfold headHigh highRead
  cases s.schedule <;> simp

theorem stateWord_eq (s : State) : stateWord s = BitVec.ofNat 16 (states s) := by
  unfold stateWord states
  cases s.timebase.state <;> cases s.service <;> cases s.floor.state <;> cases s.image.state <;> rfl

theorem layoutWord_eq (l : Layout) :
    layoutWord l =
      BitVec.ofNat 16 (4096 * (l.base % 16) + 256 * (l.depth % 16) + l.left % 256) := by
  apply BitVec.eq_of_toNat_eq
  simp only [layoutWord, toNat_append, BitVec.toNat_ofNat]
  omega

theorem epochWord_eq (tb : Timebase) :
    tb.epoch ++ BitVec.ofNat 8 (classCode tb.cls) =
      BitVec.ofNat 16 (256 * tb.epoch.toNat + classNumber tb.cls) := by
  have := tb.epoch.isLt
  have hcode : classCode tb.cls = classNumber tb.cls ∧ classNumber tb.cls < 256 := by
    cases tb.cls <;> decide
  apply BitVec.eq_of_toNat_eq
  rw [toNat_append, BitVec.toNat_ofNat, BitVec.toNat_ofNat, hcode.1]
  omega

theorem ofNat_toNat (w : Word) : BitVec.ofNat 16 w.toNat = w := by
  simp

theorem zeroExtend_eq {n : Nat} (w : BitVec n) :
    w.zeroExtend 16 = BitVec.ofNat 16 w.toNat :=
  BitVec.eq_of_toNat_eq (by simp)

/-- The words of the report window, one by one (section 11.5). -/
theorem reportWords_eq (s : State) :
    reportHead s ++ counterWords s.counters = (report s).map (BitVec.ofNat 16) := by
  have hresult : outcomeCode s.lastOutcome.result = outcomeNumber s.lastOutcome.result := by
    cases s.lastOutcome.result <;> rfl
  have hlabel : shownLabel s = label s := rfl
  cases hslew : s.retiming.slewMode <;>
    simp only [reportHead, counterWords, report, List.cons_append, List.nil_append, List.map_cons,
      List.map_nil, zeroExtend_eq, stateWord_eq, lowWord_eq, highWord_eq, halves, epochWord_eq,
      layoutWord_eq, headHigh_eq, headSpeech_eq, headDue_eq, hslew, slewCode, hresult, hlabel,
      wordOf, pairWord, ofNat_toNat]

theorem reportWord_eq (n : BitVec 6) (s : State) :
    reportWord n s = BitVec.ofNat 16 ((report s).getD n.toNat 0) := by
  rw [reportWord, reportWords_eq]
  exact List.getD_map (d := 0) ..

/-- What a processor's read of a report word changes (R181, R182). -/
theorem reportRead_eq (n : BitVec 6) (s : State) :
    reportRead n s =
      if n = 0 then { s with attention := 0 }
      else if n = 2 then { s with latches := { s.latches with e := halves s.timebase.e } }
      else if n = 23 then { s with latches := { s.latches with headSpeech := halves (headS s) } }
      else if n = 25 then { s with latches := { s.latches with headDue := halves (headD s) } }
      else s := by
  have hn : ∀ k : BitVec 6, n = k ↔ n.toNat = k.toNat := fun k => BitVec.toNat_inj.symm
  simp only [reportRead, highWord_eq, headSpeech_eq, headDue_eq, hn]
  split <;> simp_all

theorem exec_latchedLowRead_processor {s : State} (hlow : s.resetLow = false) (n : BitVec 6) :
    exec (.latchedLowRead .processor n) s = .next { reportRead n s with
      busOut := .answered (BitVec.ofNat 16 ((report s).getD n.toNat 0)) } := by
  rw [exec_latchedLowRead, busRead_report_processor hlow, ← reportWord_eq]
  rfl

theorem exec_latchedLowRead_inserter {s : State} (hlow : s.resetLow = false) (n : BitVec 6) :
    exec (.latchedLowRead .inserter n) s = .next { s with busOut := .answered 0 } := by
  rw [exec_latchedLowRead, busRead_report_inserter hlow]
  rfl

/-- Settles O42: the words of the window one by one, and what a processor's read of each changes. -/
theorem reportReads : Obligations.ReportReads := by
  refine fun s hlow => ⟨by simp [alertLow, hlow], by simp [alertLow],
    exec_latchedLowRead_inserter hlow, exec_latchedLowRead_inserter hlow 0,
    exec_latchedLowRead_processor hlow 0, fun n => ?_⟩
  rw [exec_latchedLowRead_processor hlow, reportRead_eq]

/-! ### The context port (R170) -/

theorem windowOf_contextPort {s : State} (hlow : s.resetLow = false) :
    windowOf (spanWord 0x2450 s) s = .contextPort := by
  rw [windowOf_spanWord hlow (by decide)]
  rfl

theorem exec_contextPortRead_processor {s : State} (hlow : s.resetLow = false) :
    exec (.contextPortRead .processor) s = .next { s with
      busOut := .answered (contextWord s.image), image := contextAdvance s.image } := by
  simp only [exec_contextPortRead, busRead, windowOf_contextPort hlow]
  rfl

/-- Settles O43: a read of the port by the buffer's state and, in SNAPSHOT, its read position; no write
to the port is watched. -/
theorem contextPortReads : Obligations.ContextPortReads := by
  refine fun s hlow => ⟨fun hstate hp => ?_, fun hstate hp => ?_, fun hstate => ?_, ?_, fun q w => ?_⟩
  · rw [exec_contextPortRead_processor hlow]
    simp [contextWord, contextAdvance, hstate, hp]
  · rw [exec_contextPortRead_processor hlow]
    simp [contextWord, contextAdvance, hstate, hp]
  · rw [exec_contextPortRead_processor hlow]
    unfold contextWord contextAdvance
    cases hcase : s.image.state <;> simp_all
  · simp only [exec_contextPortRead, busRead, windowOf_contextPort hlow]
    rfl
  · refine congrArg Host.Outcome.next ?_
    cases q with
    | inserter => rfl
    | processor =>
      simp only [busWrite, windowOf_contextPort hlow]
      rfl

end Sys2Proof.Accesses
end

section
/-! SUPPORT. The shared operations in the words of the statements: notices, counts, raises, clamps and
appends as whole next states, said once for every family. -/

namespace Sys2Proof.Effects

open Sys2Proof.Machine Sys2Proof.Expect Sys2Proof.ProgrammeTime Sys2Proof.FloorAndHandoff

/-! ### Tags (R98 to R102) -/

theorem tagAdmitted_eq : tagAdmitted = admitTag := by
  funext t; cases t <;> rfl

theorem tagDiscarded_eq : tagDiscarded = dropTag := funext tagDiscarded_eq_dropTag

theorem tagClosed_eq : tagClosed = closeTag := by
  funext t; cases t <;> rfl

theorem tagGroupRemoved_eq (anyTaken : Bool) : tagGroupRemoved anyTaken = removeTag anyTaken := by
  funext t; cases t <;> cases anyTaken <;> rfl

theorem tagFirstTaken_eq : tagFirstTaken = fun t => if t = .composed then .sending else t := by
  funext t; cases t <;> rfl

theorem tagLastTaken_eq : tagLastTaken = fun t => if t = .sending then .shown else t := by
  funext t; cases t <;> rfl

theorem tagReleased_eq (cs : List Cell) :
    tagReleased cs.length =
      fun tag => if tag = .pending then (if cs = [] then .dropped else .composed) else tag := by
  funext t; cases t <;> cases cs <;> rfl

/-! ### Notices (R97) -/

/-- A retagged entry of its own lane's stack. -/
theorem retagged_singleton (id : TokenId) (f : Tag → Tag) (st : List StackEntry) :
    retagged id.lane [id] f st = retag id f st := by
  refine List.map_congr_left fun en _ => ?_
  by_cases h : en.id = id <;> simp [h]

/-- A token of the other lane names no entry of this lane's stack. -/
theorem retagged_of_lane_ne {x : Lane} {ids : List TokenId} (h : ∀ id ∈ ids, id.lane ≠ x)
    (f : Tag → Tag) (st : List StackEntry) : retagged x ids f st = st := by
  refine (List.map_congr_left fun en _ => ?_).trans (List.map_id st)
  rw [if_neg fun hen => h en.id hen.1 hen.2, id]

theorem notice_eq_noticed (id : TokenId) (f : Tag → Tag) (s : State) :
    notice id f s = noticed [id] f s := by
  obtain ⟨x, n⟩ := id
  have hown := retagged_singleton ⟨x, n⟩ f
  have hother := fun st => retagged_of_lane_ne (x := otherLane x) (ids := [⟨x, n⟩])
    (by simpa using (otherLane_ne x).symm) f st
  cases x <;> simp only [otherLane] at hown hother <;>
    simp only [notice, setStack, setLane, laneOf, noticed, hown, hother]

theorem noticeClosed_eq_noticed (sps : List Span) (s : State) :
    noticeClosed sps s = noticed (sps.map (·.id)) closeTag s := by
  have hframe := noticeClosed_frame sps s
  have ha := laneOf_noticeClosed sps .a s
  have hb := laneOf_noticeClosed sps .b s
  generalize noticeClosed sps s = t at hframe ha hb ⊢
  cases t
  simp_all [noticed, retagged, tagClosed_eq]

theorem closeRow_eq_closed (s : State) : closeRow s = closed s := by
  rw [closeRow, noticeClosed_eq_noticed]
  rfl

/-! ### Counting and clamping (R45, R59, R150) -/

theorem clampSpeech_eq_raised (limit : Option Frame) (speech : Frame) :
    clampSpeech limit speech = raised limit speech := by
  cases limit <;> rfl

theorem bunches_eq_behind (limit : Option Frame) (speech : Frame) :
    bunches limit speech = behind limit speech := by
  cases limit <;> rfl

theorem countIf_bunched (b : Bool) (s : State) :
    countIf .bunched b s =
      { s with counters := { s.counters with bunched := upIf b s.counters.bunched } } := by
  cases b <;> simp [countIf, count, bumpCounter, countUp_eq_up, upIf]

theorem countIf_truncated (b : Bool) (s : State) :
    countIf .truncated b s =
      { s with counters := { s.counters with truncated := upIf b s.counters.truncated } } := by
  cases b <;> simp [countIf, count, bumpCounter, countUp_eq_up, upIf]

theorem countIf_lateTokens (b : Bool) (s : State) :
    countIf .lateTokens b s =
      { s with counters := { s.counters with lateTokens := upIf b s.counters.lateTokens } } := by
  cases b <;> simp [countIf, count, bumpCounter, countUp_eq_up, upIf]

/-- `n` occurrences of one thing are known by what they do to each counter. -/
theorem countTimes_eq {c : Counter} {n : Nat} {s : State} {k : Counters}
    (hown : counterValue c k = upBy n (counterValue c s.counters))
    (hother : ∀ d, d ≠ c → counterValue d k = counterValue d s.counters) :
    countTimes c n s = { s with counters := k } := by
  have hk : (countTimes c n s).counters = k := by
    refine counters_ext fun d => BitVec.eq_of_toNat_eq ?_
    rw [counterValue_countTimes]
    by_cases hd : d = c
    · subst hd
      rw [if_pos rfl, hown, upBy, BitVec.toNat_ofNat]
      omega
    · rw [if_neg hd, hother d hd]
  have hframe := countTimes_frame c n s
  generalize countTimes c n s = t at hframe hk ⊢
  cases t
  simp_all

theorem countTimes_substituted (n : Nat) (s : State) :
    countTimes .substituted n s =
      { s with counters := { s.counters with substituted := upBy n s.counters.substituted } } := by
  refine countTimes_eq rfl fun d hd => ?_
  cases d <;> first | rfl | exact absurd rfl hd

/-! ### The cell queue (R75, R124) -/

/-- Cells that are some join the tail and set the held-cells mark. -/
theorem appendCells_eq {cs : List Cell} (h : cs ≠ []) (s : State) :
    appendCells cs s = { s with
      composer := { s.composer with cells := s.composer.cells ++ cs }
      emission := { s.emission with heldCurrent := true } } := by
  have hne : (s.composer.cells ++ cs).isEmpty = false := by
    simp [h]
  simp only [appendCells, hne, Bool.not_false, Bool.or_true]

end Sys2Proof.Effects
end

section
/-! SUPPORT. Directives (09_directives_and_cues.md): each named directive as its owner carries it out,
and what it ends with, settled. -/

namespace Sys2Proof.Directives

open Sys2Proof.Machine Sys2Proof.Expect Sys2Proof.ProgrammeTime Sys2Proof.LaneRecords
  Sys2Proof.FloorAndHandoff Sys2Proof.Effects

/-! ### The retiming directives (R38 to R42) -/

theorem clampTop_eq (top : Nat) (v : Word) :
    clampTop top v = (min v.toNat top, clampedTo top v) := by
  unfold clampTop clampedTo
  split
  · next h => rw [min_eq_left h]
  · next h => rw [min_eq_right (by omega)]

theorem setDelay_eq (d : Word) (s : State) :
    setDelay d s = ({ s with retiming := { s.retiming with delayTarget := min d.toNat 300 } },
      clampedTo 300 d) := by
  rw [setDelay, clampTop_eq]

theorem setLag_of_range {n : Word} (h : 1 < n.toNat) (l : Word) (s : State) :
    setLag n l s = (s, .range) := by
  rw [setLag, laneOfWord_eq_none h]

theorem setLag_of_lane {n : Word} (h : ¬ 1 < n.toNat) (l : Word) (s : State) :
    setLag n l s = (setLane (laneNamed n.toNat)
      { laneOf (laneNamed n.toNat) s with lagTarget := min l.toNat 300 } s, clampedTo 300 l) := by
  simp only [setLag, laneOfWord_eq_some h, clampTop_eq]

theorem setLead_eq (n : Word) (s : State) :
    setLead n s = ({ s with retiming := { s.retiming with lead := min n.toNat 12 } },
      clampedTo 12 n) := by
  rw [setLead, clampTop_eq]

theorem setHorizon_eq (h : Word) (s : State) :
    setHorizon h s =
      ({ s with retiming := { s.retiming with horizon := max 25 (min h.toNat 500) } },
        if 25 ≤ h.toNat ∧ h.toNat ≤ 500 then .done else .clamped) := by
  unfold setHorizon
  split
  · next hlow =>
    rw [if_neg (by omega), max_eq_left (by omega)]
  · next hlow =>
    have hresult : clampedTo 500 h =
        if 25 ≤ h.toNat ∧ h.toNat ≤ 500 then Result.done else .clamped :=
      if_congr (by omega) rfl rfl
    rw [clampTop_eq, hresult, max_eq_right (by omega)]

theorem setSlew_of_range {mode : Word} (h : 1 < mode.toNat) (s : State) :
    setSlew mode s = (s, .range) := by
  have hzero : mode ≠ 0 := by rintro rfl; contradiction
  have hone : mode ≠ 1 := by rintro rfl; contradiction
  rw [setSlew, if_neg hzero, if_neg hone]

theorem setSlew_of_mode {mode : Word} (h : ¬ 1 < mode.toNat) (s : State) :
    setSlew mode s = ({ s with
      retiming := { s.retiming with slewMode := if mode.toNat = 0 then .normal else .brisk }
      timebase := { s.timebase with ticker := 0 } }, .done) := by
  have hmode : mode = 0 ∨ mode = 1 := by bv_omega
  rcases hmode with rfl | rfl <;> rfl

/-- Settles O45: each directive's value is clamped as its rule says and nothing else is set. -/
theorem retimingDirectives : Obligations.RetimingDirectives := by
  refine fun s tag hlow => ⟨fun d => ?_, fun n l => ?_, fun n => ?_, fun h => ?_, fun mode => ?_⟩
  · exact exec_of_countAccepted (d := .delay) tag hlow rfl (setDelay_eq d s)
  · have hexec {t : State} {r : Result} (howner : setLag n l s = (t, r)) :
        exec (.lag tag [n, l]) s = .next (answered 0x02 tag r t) :=
      exec_of_countAccepted (d := .lag) tag hlow rfl howner
    split
    · next hrange => exact hexec (setLag_of_range hrange l s)
    · next hlane => exact hexec (setLag_of_lane hlane l s)
  · exact exec_of_countAccepted (d := .lead) tag hlow rfl (setLead_eq n s)
  · exact exec_of_countAccepted (d := .stale) tag hlow rfl (setHorizon_eq h s)
  · have hexec {t : State} {r : Result} (howner : setSlew mode s = (t, r)) :
        exec (.slew tag [mode]) s = .next (answered 0x05 tag r t) :=
      exec_of_countAccepted (d := .slew) tag hlow rfl howner
    split
    · next hrange => exact hexec (setSlew_of_range hrange s)
    · next hmode => exact hexec (setSlew_of_mode hmode s)

/-! ### LAYOUT (R73, R86, R87) -/

theorem layoutValid_eq (base depth left width : Nat) :
    layoutValid { base := base, depth := depth, left := left, width := width } =
      validLayout base depth left width := by
  rw [Bool.eq_iff_iff]
  simp only [layoutValid, validLayout, Bool.and_eq_true, decide_eq_true_eq]
  omega

/-- Settles O46: LAYOUT's three outcomes; an accepted one closes the row and its pair joins the tail. -/
theorem layoutOpensAWindow : Obligations.LayoutOpensAWindow := by
  intro s tag b d l w hlow
  have hexec {t : State} {r : Result} (howner : layoutDirective b d l w s = (t, r)) :
      exec (.layout tag [b, d, l, w]) s = .next (answered 0x06 tag r t) :=
    exec_of_countAccepted (d := .layout) tag hlow rfl howner
  have hplaces : freePlaces s.composer < 2 ↔ 62 < s.composer.cells.length := by
    simp only [freePlaces, Config.cellQueueCapacity]
    omega
  simp only [layoutDirective, layoutValid_eq, hplaces, Bool.not_eq_true'] at hexec
  split_ifs at hexec ⊢ with hvalid hfull
  · exact hexec rfl
  · exact hexec rfl
  · refine (hexec rfl).trans ?_
    rw [appendCells_eq (by simp [placePair]), closeRow_eq_closed]
    rfl

/-! ### FLUSH, HOLD and RESUME (R143, R163, R164) -/

theorem flushLane_eq (x : Lane) (s : State) :
    flushLane x s = admissionRun (flushed x s) := by
  rw [flushLane]
  simp only [noticeDiscarded_eq_noticed]
  congr 1
  cases x <;> simp [flushed, noticed, setQueue, setLane, laneOf, otherLane, retagged_dropTag_append]

/-- Settles O49: each directive ends as its owner says, by service state and buffer state. -/
theorem flushHoldAndResume : Obligations.FlushHoldAndResume := by
  refine fun s tag hlow => ⟨fun n => ?_, exec_of_countAccepted (d := .hold) tag hlow rfl rfl,
    fun hservice hfill => ?_, fun hservice hfill => ?_, fun hservice hfill => ?_⟩
  · have hexec {t : State} {r : Result} (howner : flush n s = (t, r)) :
        exec (.flush tag [n]) s = .next (answered 0x09 tag r t) :=
      exec_of_countAccepted (d := .flush) tag hlow rfl howner
    split
    · next hrange => exact hexec (by rw [flush, laneOfWord_eq_none hrange])
    · next hlane => exact hexec (by simp only [flush, laneOfWord_eq_some hlane, flushLane_eq])
  · exact exec_of_countAccepted (d := .resume) tag hlow rfl
      (by simp only [directiveOwner, resumeService, hservice, hfill])
  · refine exec_of_countAccepted (d := .resume) tag hlow rfl ?_
    simp only [directiveOwner, resumeService, hservice]
    rfl
  · refine exec_of_countAccepted (d := .resume) tag hlow rfl ?_
    simp only [directiveOwner, resumeService, hservice]

/-! ### CUE and UNCUE (R154, R155, R160) -/

theorem cueAction_of_le {act : Word} (h : act.toNat ≤ 4) (args : List Word) :
    cueAction act (args.getD 0 0) (args.getD 1 0) = some (actionNamed act.toNat args) := by
  generalize hn : act.toNat = n at h
  simp only [cueAction, hn]
  interval_cases n <;> rfl

theorem cueAction_of_lt {act : Word} (h : 4 < act.toNat) (first second : Word) :
    cueAction act first second = none := by
  unfold cueAction
  split <;> first | omega | rfl

theorem cueCount_of_le {act : Word} (h : act.toNat ≤ 4) :
    cueCount act = some (5 + argumentsTaken act.toNat) := by
  generalize hn : act.toNat = n at h
  simp only [cueCount, hn]
  interval_cases n <;> rfl

/-- The forward distance is the signed difference modulo the day (R155). -/
theorem forwardDistance_eq {day n : Nat} (h : n < day) (target : Nat) :
    (forwardDistance day n target : Int) = ((target : Int) - n) % day := by
  have : ((target + day - n : Nat) : Int) = (target : Int) - n + day := by omega
  rw [forwardDistance, Int.natCast_mod, this, Int.add_emod_right]

/-- A cue of correct shape is judged in this order, and armed if nothing is against it (R155). -/
theorem armCue_eq (tag : Byte) (l : Label) (action : CueAction) (s : State) :
    armCue tag l action s =
      let distance := forwardDistance (dayLength (rateOf s.rate)) s.timebase.n
        (frameNumber (rateOf s.rate) l)
      let r : Result :=
        if s.timebase.known = false then .noTimecode
        else if validLabel (rateOf s.rate) l = false then .range
        else if 8 ≤ s.cues.length then .full
        else if distance = 0 ∨ dayLength (rateOf s.rate) / 2 < distance then .past
        else .done
      (if r = .done then { s with cues := s.cues ++
        [{ tag := tag, target := frameNumber (rateOf s.rate) l, epoch := s.timebase.epoch,
           action := action }] } else s, r) := by
  simp only [armCue, Bool.not_eq_true']
  split_ifs <;> trivial

/-- Settles O50: shape, label, table and distance are judged in this order. -/
theorem cueIsJudgedAndArmed : Obligations.CueIsJudgedAndArmed := by
  intro s tag h m sec f act args hlow hargs hn l day target ahead r
  have hcount : countAccepted .cue (h :: m :: sec :: f :: act :: args).length = true := by
    simp only [countAccepted, List.length_cons, Bool.and_eq_true, decide_eq_true_eq]
    omega
  refine exec_of_countAccepted (d := .cue) tag hlow hcount ?_
  have howner : directiveOwner .cue tag (h :: m :: sec :: f :: act :: args) s =
      match cueAction act (args.getD 0 0) (args.getD 1 0) with
      | none => (s, .range)
      | some action =>
        if cueCount act ≠ some (args.length + 5) then (s, .malformed)
        else armCue tag l action s := rfl
  have hpast : (ahead = 0 ∨ (day : Int) < 2 * ahead) =
      (forwardDistance day s.timebase.n target = 0 ∨
        day / 2 < forwardDistance day s.timebase.n target) := by
    have hahead : ahead = (forwardDistance day s.timebase.n target : Int) :=
      (forwardDistance_eq hn target).symm
    rw [hahead, eq_iff_iff]
    generalize forwardDistance day s.timebase.n target = distance
    clear_value day
    omega
  rw [howner]
  by_cases hact : 4 < act.toNat
  · simp only [cueAction_of_lt hact, r, if_pos hact]
    rfl
  · have hle : act.toNat ≤ 4 := by omega
    simp only [cueAction_of_le hle, cueCount_of_le hle, r, if_neg hact, hpast, armCue_eq]
    by_cases hshape : args.length = argumentsTaken act.toNat
    · rw [if_neg (by rw [hshape, Nat.add_comm]; exact not_not.mpr rfl), if_neg (not_not.mpr hshape)]
    · rw [if_pos (by rw [ne_eq, Option.some.injEq]; omega), if_pos hshape]
      rfl

/-- Settles O51: the filter of UNCUE, and its refusal. -/
theorem uncueRetiresByTag : Obligations.UncueRetiresByTag := by
  intro s tag p hlow
  have hexec {t : State} {r : Result} (howner : uncue p s = (t, r)) :
      exec (.uncue tag [p]) s = .next (answered 0x11 tag r t) :=
    exec_of_countAccepted (d := .uncue) tag hlow rfl howner
  split
  · next hrange => exact hexec (if_pos hrange)
  · next hrange => exact hexec (if_neg hrange)

/-! ### ZERO_COUNTS and RESTART (R150 to R152) -/

/-- Settles O52. -/
theorem zeroCountsClearsCounters : Obligations.ZeroCountsClearsCounters :=
  fun _ tag hlow => exec_of_countAccepted (d := .zeroCounts) tag hlow rfl rfl

/-- Settles O53: the emptied blocks, and the PLACE pair appended to the emptied queue. -/
theorem restartEmptiesThePipeline : Obligations.RestartEmptiesThePipeline := by
  intro s tag hlow emptied y
  refine exec_of_countAccepted (d := .restart) tag hlow rfl ?_
  rw [directiveOwner, restart, appendCells_eq (by simp [placePair])]
  rfl

/-! ### Records that are refused before any owner acts (R147) -/

theorem directiveOf_eq_none {code : BitVec 5} (h : code.toNat = 0 ∨ 0x14 ≤ code.toNat) :
    directiveOf code = none := by
  unfold directiveOf
  split <;> first | omega | rfl

/-- A command with a shape is a directive of the catalogue. -/
theorem shape_eq_some {c : Instr} {code : BitVec 5} {tag : Byte} {n : Nat}
    (h : shape c = some (code, tag, n)) :
    ∃ d params, c = directiveCommand d tag params ∧ codeOf d = code ∧ params.length = n := by
  cases c <;> simp only [shape, reduceCtorEq, Option.some.injEq, Prod.mk.injEq] at h <;>
    obtain ⟨rfl, rfl, rfl⟩ := h
  case delay ps => exact ⟨.delay, ps, rfl, rfl, rfl⟩
  case lag ps => exact ⟨.lag, ps, rfl, rfl, rfl⟩
  case lead ps => exact ⟨.lead, ps, rfl, rfl, rfl⟩
  case stale ps => exact ⟨.stale, ps, rfl, rfl, rfl⟩
  case slew ps => exact ⟨.slew, ps, rfl, rfl, rfl⟩
  case layout ps => exact ⟨.layout, ps, rfl, rfl, rfl⟩
  case clear ps => exact ⟨.clear, ps, rfl, rfl, rfl⟩
  case handoff ps => exact ⟨.handoff, ps, rfl, rfl, rfl⟩
  case flush ps => exact ⟨.flush, ps, rfl, rfl, rfl⟩
  case hold ps => exact ⟨.hold, ps, rfl, rfl, rfl⟩
  case resume ps => exact ⟨.resume, ps, rfl, rfl, rfl⟩
  case snapshot ps => exact ⟨.snapshot, ps, rfl, rfl, rfl⟩
  case restoreOpen ps => exact ⟨.restoreOpen, ps, rfl, rfl, rfl⟩
  case restoreCommit ps => exact ⟨.restoreCommit, ps, rfl, rfl, rfl⟩
  case restoreAbandon ps => exact ⟨.restoreAbandon, ps, rfl, rfl, rfl⟩
  case cue ps => exact ⟨.cue, ps, rfl, rfl, rfl⟩
  case uncue ps => exact ⟨.uncue, ps, rfl, rfl, rfl⟩
  case zeroCounts ps => exact ⟨.zeroCounts, ps, rfl, rfl, rfl⟩
  case restart ps => exact ⟨.restart, ps, rfl, rfl, rfl⟩

/-- The catalogue's parameter counts (section 9.3). -/
theorem countAccepted_iff (d : Directive) (n : Nat) :
    countAccepted d n = true ↔ n ∈ countsTaken (codeOf d) := by
  cases d <;> simp [countAccepted, codeOf, countsTaken]
  omega

/-- Settles O54: no owner is asked where the code or the count is refused. -/
theorem refusedRecordsChangeNothing : Obligations.RefusedRecordsChangeNothing := by
  refine fun s hlow => ⟨fun code tag params hcode => ?_, fun c code tag n hshape hcount => ?_⟩
  · rw [← finishDirective_eq_answered]
    simp [exec, execUnknownDirective, done, whileReleased, hlow, directiveRecord,
      directiveOf_eq_none hcode]
  · obtain ⟨d, params, rfl, rfl, rfl⟩ := shape_eq_some hshape
    rw [exec_directiveCommand d tag params hlow, carryOut, judgeDirective,
      if_neg (mt (countAccepted_iff d _).mp hcount), finishDirective_eq_answered]

end Sys2Proof.Directives
end

section
/-! SUPPORT. Programme time, continued (01_programme_time.md): the clock that runs up to an edge, the
reception of timecode, and how labels are counted, settled. -/

namespace Sys2Proof.ProgrammeTime

open Sys2Proof.Machine Sys2Proof.Expect

/-! ### E (R7) -/

/-- Settles O14: E is part of the clock. -/
theorem frameCountMovesOnlyAtFrameEvents : Obligations.FrameCountMovesOnlyAtFrameEvents :=
  fun _ _ _ h href hc => congrArg Clock.e (exec_keeps_clock h href hc)

/-! ### Time up to an edge (log 6) -/

theorem nominalPeriod_pos (r : Rate) : 0 < nominalPeriod r := by
  cases r <;> decide

/-- An internal frame event due before the moment is made, and the clock runs on. -/
theorem runClock_succ {o : FrameOrder} {moment m : Nat} {s : State} (k : Nat)
    (hm : internalMoment s.timebase = some m) (hlt : m < moment) :
    runClock (k + 1) o moment s = runClock k o moment (internalEvent o m s) := by
  simp only [runClock, hm, if_pos hlt]

/-- With none due before it, the clock is there. -/
theorem runClock_of_le {o : FrameOrder} {moment m : Nat} {s : State} (k : Nat)
    (hm : internalMoment s.timebase = some m) (hle : moment ≤ m) :
    runClock k o moment s = s := by
  cases k with
  | zero => rfl
  | succ k => simp only [runClock, hm, if_neg (Nat.not_lt.mpr hle)]

theorem internalMoment_freewheel {tb : Timebase} (hs : tb.state = .freewheel) :
    internalMoment tb = tb.nextPulse := by
  simp only [internalMoment, hs]

theorem internalMoment_locked {tb : Timebase} (hs : tb.state = .locked) :
    internalMoment tb = tb.deadline := by
  simp only [internalMoment, hs]

/-- In FREEWHEEL any two bounds that leave room for every pulse due give the same run. -/
theorem runClock_freewheel {o : FrameOrder} {moment j k p : Nat} {s : State}
    (hs : s.timebase.state = .freewheel) (hp : s.timebase.nextPulse = some p)
    (hj : moment ≤ p + j * nominalPeriod (rateOf s.rate))
    (hk : moment ≤ p + k * nominalPeriod (rateOf s.rate)) :
    runClock j o moment s = runClock k o moment s := by
  have hmoment := (internalMoment_freewheel hs).trans hp
  induction j generalizing k p s with
  | zero =>
    rw [runClock_of_le 0 hmoment (by omega), runClock_of_le k hmoment (by omega)]
  | succ j ih =>
    rcases Nat.lt_or_ge p moment with hlt | hle
    · obtain ⟨k, rfl⟩ : ∃ k', k = k' + 1 := Nat.exists_eq_succ_of_ne_zero (by rintro rfl; omega)
      have hevent : internalEvent o p s = pulseReached o p s := by
        simp only [internalEvent, hs]
      have hclock := clockOf_pulseReached o p s
      have hstate : (pulseReached o p s).timebase.state = .freewheel :=
        (congrArg Clock.state hclock).trans hs
      have hpulse := congrArg Clock.nextPulse hclock
      have hrate : (pulseReached o p s).rate = s.rate := by simp
      rw [Nat.succ_mul] at hj hk
      rw [runClock_succ j hmoment hlt, runClock_succ k hmoment hlt, hevent]
      exact ih hstate hpulse (by rw [hrate]; omega) (by rw [hrate]; omega)
        ((internalMoment_freewheel hstate).trans hpulse)
    · rw [runClock_of_le _ hmoment hle, runClock_of_le _ hmoment hle]

/-- An edge after an internal frame event, from there on: `t` is the part after it, in FREEWHEEL with
its next pulse one period later. -/
theorem edgeAfter_internal {o : FrameOrder} {elapsed m : Nat} {s t : State}
    (hle : s.timebase.now ≤ m) (hlt : m < s.timebase.now + elapsed)
    (hm : internalMoment s.timebase = some m) (ht : internalEvent o m s = t)
    (hstate : t.timebase.state = .freewheel) (hnow : t.timebase.now = m)
    (hpulse : t.timebase.nextPulse = some (m + nominalPeriod (rateOf s.rate)))
    (hrate : t.rate = s.rate) :
    edgeAfter elapsed o s = edgeAfter (s.timebase.now + elapsed - m) o t := by
  have hmoment : m + (s.timebase.now + elapsed - m) = s.timebase.now + elapsed := by omega
  have hpos := nominalPeriod_pos (rateOf s.rate)
  have hfuel := Nat.lt_mul_div_succ elapsed hpos
  have hfuel' := Nat.lt_mul_div_succ (s.timebase.now + elapsed - m) hpos
  simp only [edgeAfter, hnow, hmoment, hrate]
  rw [runClock_succ _ hm hlt, ht]
  congr 1
  rw [Nat.mul_comm] at hfuel hfuel'
  refine runClock_freewheel hstate hpulse ?_ ?_
  · rw [hrate]
    omega
  · rw [hrate, Nat.succ_mul]
    omega

/-- Settles O13: both internal frame events leave FREEWHEEL at their moment with a pulse one period
later, and the clock runs on from there. -/
theorem timeRunsUpToAnEdge : Obligations.TimeRunsUpToAnEdge := by
  refine fun s elapsed o m hlow hle hlt => ⟨fun hs hd => ?_, fun hs hp => ?_⟩
  · have hclock := clockOf_deadlineReached o m s
    refine ⟨_, exec_freewheelDeadline o hlow hs hd, ?_⟩
    rw [exec_fpEdge _ o hlow, exec_fpEdge _ o (by simp [hlow]),
      edgeAfter_internal hle hlt ((internalMoment_locked hs).trans hd)
        (by simp only [internalEvent, hs]) (congrArg Clock.state hclock)
        (congrArg Clock.now hclock) (congrArg Clock.nextPulse hclock) (by simp)]
  · have hclock := clockOf_pulseReached o m s
    refine ⟨_, exec_nextPulse o hlow hs hp, ?_⟩
    rw [exec_fpEdge _ o hlow, exec_fpEdge _ o (by simp [hlow]),
      edgeAfter_internal hle hlt ((internalMoment_freewheel hs).trans hp)
        (by simp only [internalEvent, hs]) ((congrArg Clock.state hclock).trans hs)
        (congrArg Clock.now hclock) (congrArg Clock.nextPulse hclock) (by simp)]

/-! ### Reception (R8, R185) -/

theorem receiveBits_falls (bits : List Bool) (tb : Timebase) :
    receiveBits bits true tb =
      if (tb.framing.getD [] ++ bits).length = 32 then
        { tb with framing := none, pendingWord := some (wordOfBits (tb.framing.getD [] ++ bits)) }
      else { tb with framing := none } := by
  generalize hall : tb.framing.getD [] ++ bits = sampled
  have hlength : (sampled.take 33).length = 32 ↔ sampled.length = 32 := by
    rw [List.length_take]
    omega
  rw [receiveBits, hall, if_pos rfl, endFraming]
  split_ifs with hkept hsampled hsampled
  · rw [List.take_of_length_le (by omega)]
  · exact absurd (hlength.mp hkept) hsampled
  · exact absurd (hlength.mpr hsampled) hkept
  · rfl

/-- Settles O15: a fall of TCS ends the framing by its length, and without one the bits are kept. -/
theorem timecodeReception : Obligations.TimecodeReception := by
  intro s bits hlow sampled
  have hexec (falls : Bool) : exec (.timecodeWord bits falls) s =
      .next { s with timebase := receiveBits bits falls s.timebase } := by
    simp [exec, execTimecodeWord, done, whileReleased, hlow]
  refine ⟨fun h32 => ⟨wordOfBits sampled, ?_, fun i hi => getLsbD_wordOfBits h32 hi⟩,
    fun hother => ?_, hexec false⟩
  · rw [hexec, receiveBits_falls, if_pos h32]
  · rw [hexec, receiveBits_falls, if_neg hother]

/-! ### Labels and frame numbers (R10, R17) -/

/-- A count of labels names one label, at 25 and at 30 labels a second. -/
theorem plainLabel_eq {fps : Nat} (hfps : fps = 25 ∨ fps = 30) {h m s f : Nat} (hm : m < 60)
    (hs : s < 60) (hf : f < fps) :
    plainLabel fps (fps * (3600 * h + 60 * m + s) + f) = { h := h, m := m, s := s, f := f } := by
  rcases hfps with rfl | rfl <;> simp only [plainLabel, Label.mk.injEq] <;> omega

/-- And the label named has that count. -/
theorem plainLabel_count {fps : Nat} (hfps : fps = 25 ∨ fps = 30) (n : Nat) :
    let l := plainLabel fps n
    l.m < 60 ∧ l.s < 60 ∧ l.f < fps ∧ fps * (3600 * l.h + 60 * l.m + l.s) + l.f = n := by
  rcases hfps with rfl | rfl <;> simp only [plainLabel] <;> omega

/-- A day of drop-frame in ten-minute blocks of 17982 labels, whose minutes but the first skip two:
a frame number is `d` blocks, `m` minutes of the block and a place in the minute. -/
theorem skippedBefore_eq {d m f : Nat} (hm : m < 10) (hf : f < 1800) (hkept : m ≠ 0 → 2 ≤ f) :
    skippedBefore (17982 * d + (1798 * m + f)) = 18 * d + 2 * m := by
  have hrest : (17982 * d + (1798 * m + f)) % 17982 = 1798 * m + f := by omega
  have hblock : (17982 * d + (1798 * m + f)) / 17982 = d := by omega
  simp only [skippedBefore, hrest, hblock]
  split <;> omega

/-- Every frame number is of this form. -/
theorem exists_drop_minute (n : Nat) :
    ∃ d m f, m < 10 ∧ f < 1800 ∧ (m ≠ 0 → 2 ≤ f) ∧ n = 17982 * d + (1798 * m + f) := by
  have hrest : n % 17982 < 17982 := Nat.mod_lt _ (by decide)
  have hn := Nat.div_add_mod n 17982
  generalize n % 17982 = rest at hrest hn
  by_cases hfirst : rest < 1800
  · exact ⟨n / 17982, 0, rest, by omega, hfirst, by omega, by omega⟩
  · refine ⟨n / 17982, (rest - 1800) / 1798 + 1, (rest - 1800) % 1798 + 2, ?_, ?_, ?_, ?_⟩ <;> omega

/-- The frame number of a label of drop-frame, in ten-minute blocks (R10). -/
theorem frameNumber_drop {l : Label} (_hskip : ¬((l.f = 0 ∨ l.f = 1) ∧ l.s = 0 ∧ l.m % 10 ≠ 0)) :
    frameNumber .fps30drop l =
      17982 * (6 * l.h + l.m / 10) + (1798 * (l.m % 10) + (30 * l.s + l.f)) := by
  simp only [frameNumber, framesPerSecond]
  omega

/-- A label is valid by its ranges where none is skipped. -/
theorem validLabel_plain_iff {r : Rate} (hr : r ≠ .fps30drop) (l : Label) :
    validLabel r l = true ↔ l.h < 24 ∧ l.m < 60 ∧ l.s < 60 ∧ l.f < framesPerSecond r := by
  rw [validLabel_iff]
  simp [hr]

/-- Without skipped labels a frame number is a count of labels (R10). -/
theorem frameNumber_plain {r : Rate} (hr : r ≠ .fps30drop) (l : Label) :
    frameNumber r l = framesPerSecond r * (3600 * l.h + 60 * l.m + l.s) + l.f := by
  cases r <;> first | rfl | exact absurd rfl hr

theorem labelOf_plain {r : Rate} (hr : r ≠ .fps30drop) (n : Nat) :
    labelOf r n = plainLabel (framesPerSecond r) n := by
  cases r <;> first | rfl | exact absurd rfl hr

theorem framesPerSecond_cases (r : Rate) : framesPerSecond r = 25 ∨ framesPerSecond r = 30 := by
  cases r <;> decide

theorem dayLength_plain {r : Rate} (hr : r ≠ .fps30drop) :
    dayLength r = framesPerSecond r * 86400 := by
  cases r <;> first | rfl | exact absurd rfl hr

/-- The label of a valid label's frame number is that label, and the number is of the day. -/
theorem labelOf_frameNumber {r : Rate} {l : Label} (h : validLabel r l = true) :
    frameNumber r l < dayLength r ∧ labelOf r (frameNumber r l) = l := by
  by_cases hr : r = .fps30drop
  · subst hr
    obtain ⟨hh, hm, hs, hf, hskip⟩ := (validLabel_iff _ l).mp h
    have hskip := hskip rfl
    simp only [framesPerSecond] at hf
    have hminute : l.m % 10 ≠ 0 → 2 ≤ 30 * l.s + l.f := by omega
    rw [frameNumber_drop hskip]
    refine ⟨by simp only [dayLength]; omega, ?_⟩
    have hcount : 17982 * (6 * l.h + l.m / 10) + (1798 * (l.m % 10) + (30 * l.s + l.f)) +
        (18 * (6 * l.h + l.m / 10) + 2 * (l.m % 10)) =
          30 * (3600 * l.h + 60 * l.m + l.s) + l.f := by omega
    rw [labelOf, skippedBefore_eq (by omega) (by omega) hminute, hcount,
      plainLabel_eq (.inr rfl) hm hs hf]
  · obtain ⟨hh, hm, hs, hf⟩ := (validLabel_plain_iff hr l).mp h
    rw [frameNumber_plain hr, labelOf_plain hr, dayLength_plain hr,
      plainLabel_eq (framesPerSecond_cases r) hm hs hf]
    refine ⟨?_, rfl⟩
    rcases framesPerSecond_cases r with heq | heq <;> rw [heq] at hf ⊢ <;> omega

/-- The label of a frame number of the day is valid and has that number. -/
theorem frameNumber_labelOf {r : Rate} {n : Nat} (h : n < dayLength r) :
    validLabel r (labelOf r n) = true ∧ frameNumber r (labelOf r n) = n := by
  by_cases hr : r = .fps30drop
  · subst hr
    obtain ⟨d, m, f, hm, hf, hkept, rfl⟩ := exists_drop_minute n
    have hlabel : labelOf .fps30drop (17982 * d + (1798 * m + f)) =
        { h := d / 6, m := 10 * (d % 6) + m, s := f / 30, f := f % 30 } := by
      have hcount : 17982 * d + (1798 * m + f) + (18 * d + 2 * m) =
          30 * (3600 * (d / 6) + 60 * (10 * (d % 6) + m) + f / 30) + f % 30 := by omega
      rw [labelOf, skippedBefore_eq hm hf hkept, hcount,
        plainLabel_eq (.inr rfl) (by omega) (by omega) (by omega)]
    simp only [dayLength] at h
    rw [hlabel, validLabel_iff, frameNumber_drop (by simp only; omega)]
    simp only [framesPerSecond]
    omega
  · rw [dayLength_plain hr] at h
    obtain ⟨hm, hs, hf, hcount⟩ := plainLabel_count (framesPerSecond_cases r) n
    rw [labelOf_plain hr, validLabel_plain_iff hr, frameNumber_plain hr]
    refine ⟨⟨?_, hm, hs, hf⟩, hcount⟩
    rcases framesPerSecond_cases r with heq | heq <;> rw [heq] at hcount h ⊢ <;> omega

/-- Settles O17: labels and numbers of the day name each other. -/
theorem frameNumbersCountLabels : Obligations.FrameNumbersCountLabels := by
  refine ⟨fun r l => by cases r <;> rfl, rfl, rfl, rfl, fun r l h => (labelOf_frameNumber h).1,
    fun r n h => ?_⟩
  obtain ⟨hvalid, hnumber⟩ := frameNumber_labelOf h
  refine ⟨hvalid, hnumber, fun k hk heq => ?_⟩
  obtain ⟨-, hlabel⟩ := labelOf_frameNumber hk
  rw [← heq, hlabel]

end Sys2Proof.ProgrammeTime
end

section
/-! SUPPORT. The frame event (01_programme_time.md, 1.3): which command makes one, what its reactions
leave as it was, and the statements about its single parts, settled. -/

namespace Sys2Proof.FrameEvents

open Sys2Proof.Machine Sys2Proof.Expect Sys2Proof.ProgrammeTime Sys2Proof.LaneRecords
  Sys2Proof.FloorAndHandoff Sys2Proof.Effects Sys2Proof.Directives

/-! ### Parts of a frame event sent alone (log 4) -/

theorem exec_outsideAbsent {s : State} (f : State → State) (hlow : s.resetLow = false)
    (hs : s.timebase.state ≠ .absent) :
    done (whileReleased (outsideAbsent f) s) = .next (f s) := by
  simp [done, whileReleased, outsideAbsent, hlow, hs]

/-- The stall check of a ring whose record has its header two frame events back (R23). -/
theorem stallCheck_of_stalled {r : Ring} {s : State} (h : stalledAt s.timebase.e (parserOf r s) = true) :
    stallCheck r s = setParser r { expected := (parserOf r s).expected, staging := none }
      { s with counters := { s.counters with stalled := up s.counters.stalled }
               attention := s.attention ||| 0x04 } := by
  rw [stallCheck, if_pos h]
  rcases r with (_ | _) | _ <;>
    simp [setParser, setLane, laneOf, parserOf, raise, causeBit, count, bumpCounter, countUp_eq_up]

theorem stallCheck_of_not_stalled {r : Ring} {s : State}
    (h : stalledAt s.timebase.e (parserOf r s) = false) : stallCheck r s = s := by
  rw [stallCheck, if_neg (by simp [h])]

/-- The pass timer's step is that of the statements (R136, R138). -/
theorem passTimerStep_eq_timed (s : State) : passTimerStep s = timed s := by
  cases hpass : passTarget s.floor.state with
  | none => simp only [passTimerStep, timed, hpass, if_true]
  | some y =>
    simp only [passTimerStep, timed, hpass, reduceCtorEq, if_false]
    by_cases htimer : s.floor.timer ≤ 1
    · rw [if_pos (by omega), if_pos htimer, completePassAndAdmit, completePass_eq_passed,
        handedOver]
    · rw [if_neg (by omega), if_neg htimer]

/-- Settles O25: each part acts on its condition as it would in a frame event. -/
theorem partsOfAFrameEventAlone : Obligations.PartsOfAFrameEventAlone := by
  refine fun s hlow hs => ⟨fun hticker => ?_, fun r st hst he => ?_, fun hpass htimer => ?_⟩
  · have hwraps : tickerWraps s = true := by
      simp only [tickerWraps, decide_eq_true_eq, hticker]
      cases s.retiming.slewMode <;> exact le_refl _
    refine (exec_outsideAbsent _ hlow hs).trans ?_
    rw [if_pos hwraps]
    rfl
  · refine (exec_outsideAbsent _ hlow hs).trans (congrArg Host.Outcome.next ?_)
    exact stallCheck_of_stalled (by simp [stalledAt, hst, he])
  · refine (exec_outsideAbsent _ hlow hs).trans (congrArg Host.Outcome.next ?_)
    rw [if_pos htimer, passTimerStep_eq_timed, timed, if_neg hpass, if_pos htimer, handedOver]

/-! ### CUE_FIRE (R157) -/

theorem cueDue_eq_fires (tb : Timebase) (q : Cue) : cueDue tb q = fires tb q := by
  simp [cueDue, fires, Bool.and_assoc, Bool.beq_eq_decide_eq]

/-- The oldest due cue leaves the table and fires. -/
theorem fireOldest_of_due {s : State} {older younger : List Cue} {q : Cue}
    (hcues : s.cues = older ++ q :: younger) (holder : ∀ p ∈ older, fires s.timebase p = false)
    (hq : fires s.timebase q = true) :
    fireOldest s = fireCue q { s with cues := older ++ younger } := by
  have hnone : ∀ p ∈ older, ¬ cueDue s.timebase p = true := fun p hp => by
    simp [cueDue_eq_fires, holder p hp]
  have hfind : s.cues.find? (cueDue s.timebase) = some q := by
    rw [hcues, List.find?_append, List.find?_eq_none.mpr hnone, Option.none_or,
      List.find?_cons_of_pos (by rw [cueDue_eq_fires, hq])]
  have herase : s.cues.eraseP (cueDue s.timebase) = older ++ younger := by
    rw [hcues, List.eraseP_append_right _ hnone,
      List.eraseP_cons_of_pos (by rw [cueDue_eq_fires, hq])]
  simp only [fireOldest, hfind, herase]

/-- The directive of a cue's action. -/
def actionDirective (a : CueAction) : Directive × List Word :=
  match a with
  | .hold => (.hold, [])
  | .resume => (.resume, [])
  | .clear => (.clear, [])
  | .handoff lane wait => (.handoff, [lane, wait])
  | .delay d => (.delay, [d])

theorem directiveOwner_actionDirective (a : CueAction) (tag : Byte) (s : State) :
    directiveOwner (actionDirective a).1 tag (actionDirective a).2 s = actionOwner a s := by
  cases a <;> rfl

theorem exec_actionDirective (a : CueAction) (tag : Byte) {s : State} (hlow : s.resetLow = false) :
    exec (directiveCommand (actionDirective a).1 tag (actionDirective a).2) s =
      .next (answered (codeOf (actionDirective a).1) tag (actionOwner a s).2 (actionOwner a s).1) :=
  exec_of_countAccepted tag hlow (by cases a <;> rfl) (directiveOwner_actionDirective a tag s)

theorem handoff_of_refused {n w : Word} {s : State} (hdone : (handoff n w s).2 ≠ .done)
    (hclamped : (handoff n w s).2 ≠ .clamped) : (handoff n w s).1 = s := by
  by_cases hrange : 1 < n.toNat
  · rw [handoff_of_range hrange]
  by_cases hpass : passTarget s.floor.state = none
  · by_cases hsame : laneNamed n.toNat = floorLane s.floor.state
    · rw [handoff_of_same hrange w hpass hsame]
    · rw [handoff_of_other hrange w hpass hsame, clampedTo] at hdone hclamped
      split_ifs at hdone hclamped <;> contradiction
  · rw [handoff_of_passing hrange w hpass] at hdone ⊢
    split_ifs at hdone ⊢
    · contradiction
    · rfl

/-- A refused action changes nothing (R157). -/
theorem actionOwner_of_refused {a : CueAction} {s : State} (hdone : (actionOwner a s).2 ≠ .done)
    (hclamped : (actionOwner a s).2 ≠ .clamped) : (actionOwner a s).1 = s := by
  cases a with
  | hold | clear => exact absurd rfl hdone
  | handoff lane wait => exact handoff_of_refused hdone hclamped
  | resume =>
    simp only [actionOwner, resumeService] at hdone ⊢
    split at hdone <;> first | rfl | exact absurd rfl hdone
  | delay d =>
    simp only [actionOwner, setDelay_eq, clampedTo] at hdone hclamped
    split_ifs at hdone hclamped <;> contradiction

/-- A cue action ends as its directive does, but for the outcome record: a refusal is counted and
raised in its own way (R157, step 3). -/
theorem settleAction_eq (code : BitVec 5) (tag : Byte) (r : Result) (s : State) :
    settleAction r s =
      let u := answered code tag r s
      if u.lastOutcome.result = .done ∨ u.lastOutcome.result = .clamped then
        { u with lastOutcome := s.lastOutcome }
      else { s with
        attention := s.attention ||| 0x80
        counters := { s.counters with cueActionsRefused := up s.counters.cueActionsRefused } } := by
  cases r <;> simp [settleAction, answered, raise, causeBit, count, bumpCounter, countUp_eq_up]

/-- Settles O26: CUE_FIRE fires the oldest due cue; its action's state is that of the directive. -/
theorem cueFireActsAsDirective : Obligations.CueFireActsAsDirective := by
  intro s older younger q hlow hs hcues holder hq s' directive
  have hs' : count .cuesFired { s with cues := older ++ younger } = s' := by
    simp [s', count, bumpCounter, countUp_eq_up]
  have hdirective : directive =
      directiveCommand (actionDirective q.action).1 q.tag (actionDirective q.action).2 := by
    simp only [directive]
    cases q.action <;> rfl
  have hlast : (actionOwner q.action s').1.lastOutcome = s.lastOutcome := by simp [s']
  have hfire : exec .cueFire s =
      .next (settleAction (actionOwner q.action s').2 (actionOwner q.action s').1) := by
    refine (exec_outsideAbsent _ hlow hs).trans ?_
    rw [fireOldest_of_due hcues holder hq, fireCue, hs']
  refine ⟨_, by rw [hdirective, exec_actionDirective q.action q.tag (s := s') hlow], ?_⟩
  rw [hfire, settleAction_eq (codeOf (actionDirective q.action).1) q.tag]
  refine congrArg Host.Outcome.next (if_ctx_congr Iff.rfl (fun _ => by rw [hlast]) fun hresult => ?_)
  rw [actionOwner_of_refused (fun h => hresult (.inl h)) (fun h => hresult (.inr h))]

end Sys2Proof.FrameEvents
end

section
/-! SUPPORT. Admission and release (04_the_schedule.md): what one admission and one judged head make, and
the runs that repeat them, settled. -/

namespace Sys2Proof.Schedules

open Sys2Proof.Machine Sys2Proof.Expect Sys2Proof.ProgrammeTime Sys2Proof.FloorAndHandoff
  Sys2Proof.Effects Sys2Proof.Accesses

/-! ### How many tokens wait -/

theorem queuedTokens_eq (x : Lane) (s : State) :
    queuedTokens s = (laneOf x s).queue.length + (laneOf (otherLane x) s).queue.length := by
  cases x <;> simp [queuedTokens, laneOf, otherLane, Nat.add_comm]

@[simp] theorem laneOf_noticed_queue (x : Lane) (ids : List TokenId) (f : Tag → Tag) (s : State) :
    (laneOf x (noticed ids f s)).queue = (laneOf x s).queue := by
  cases x <;> rfl

@[simp] theorem laneOf_notice_queue (x : Lane) (id : TokenId) (f : Tag → Tag) (s : State) :
    (laneOf x (notice id f s)).queue = (laneOf x s).queue := by
  rw [notice_eq_noticed, laneOf_noticed_queue]

/-- A completion leaves no token in the old floor lane's queue and the survivors in the other's
(R138, R139). -/
theorem laneOf_completePass_queue (x y : Lane) (s : State) :
    (laneOf y (completePass x s)).queue =
      if y = x then [] else (laneOf y s).queue.filter (survivesTrim s.retiming.speechTail) := by
  rw [completePass_eq_passed, passed_eq_trimTokens]
  rcases eq_or_eq_otherLane x y with rfl | rfl
  · cases y <;> rfl
  · rw [if_neg (otherLane_ne x)]
    cases x <;> rfl

theorem queuedTokens_completePass_le (x : Lane) (s : State) :
    queuedTokens (completePass x s) ≤ queuedTokens s := by
  have := List.length_filter_le (survivesTrim s.retiming.speechTail) (laneOf (otherLane x) s).queue
  simp only [queuedTokens_eq x, laneOf_completePass_queue, otherLane_ne, if_true, if_false,
    List.length_nil]
  omega

theorem queuedTokens_sentEndAdmitted_le (x : Lane) (s : State) :
    queuedTokens (sentEndAdmitted x s) ≤ queuedTokens s := by
  unfold sentEndAdmitted
  split
  · exact queuedTokens_completePass_le x s
  · exact le_refl _

/-- What an admission has done before the SENT_END notice (R59, steps 1 to 4). -/
def entered (x : Lane) (t : Token) (rest : List Token) (s : State) : State :=
  let speech := raised s.retiming.speechTail t.speech
  noticed [t.id] admitTag (setQueue x rest { s with
    counters := { s.counters with
      bunched := upIf (behind s.retiming.speechTail t.speech) s.counters.bunched }
    retiming := { s.retiming with speechTail := some speech }
    schedule := s.schedule ++ [{ t with speech := speech }] })

theorem admitToken_eq (x : Lane) (t : Token) (rest : List Token) (s : State) :
    admitToken x t rest s =
      if t.sentEnd then sentEndAdmitted t.id.lane (entered x t rest s) else entered x t rest s := by
  have hentered : ∀ u, u = setQueue x rest s →
      notice t.id tagAdmitted { countIf .bunched (bunches u.retiming.speechTail t.speech) u with
        retiming := { (countIf .bunched (bunches u.retiming.speechTail t.speech) u).retiming with
          speechTail := some (clampSpeech u.retiming.speechTail t.speech) }
        schedule := (countIf .bunched (bunches u.retiming.speechTail t.speech) u).schedule ++
          [{ t with speech := clampSpeech u.retiming.speechTail t.speech }] } =
      entered x t rest s := by
    rintro _ rfl
    rw [notice_eq_noticed, tagAdmitted_eq, countIf_bunched, bunches_eq_behind,
      clampSpeech_eq_raised, entered]
    cases x <;> rfl
  simp only [admitToken]
  rw [hentered _ rfl]

theorem queuedTokens_entered (x : Lane) (t : Token) (rest : List Token) (s : State) :
    queuedTokens (entered x t rest s) = rest.length + (laneOf (otherLane x) s).queue.length := by
  rw [queuedTokens_eq x]
  cases x <;> rfl

theorem schedule_admitToken_length (x : Lane) (t : Token) (rest : List Token) (s : State) :
    (admitToken x t rest s).schedule.length = s.schedule.length + 1 := by
  rw [admitToken_eq]
  split <;> simp [entered, noticed]

/-- An admission takes one token off the queues, and a completion it makes perhaps more. -/
theorem queuedTokens_admitToken_lt {x : Lane} {t : Token} {rest : List Token} {s : State}
    (h : (laneOf x s).queue = t :: rest) :
    queuedTokens (admitToken x t rest s) < queuedTokens s := by
  have hentered := queuedTokens_entered x t rest s
  have hqueue := queuedTokens_eq x s
  rw [h, List.length_cons] at hqueue
  rw [admitToken_eq]
  split
  · have := queuedTokens_sentEndAdmitted_le t.id.lane (entered x t rest s)
    omega
  · omega

/-! ### Admission runs (R58) -/

/-- A run ends where the floor lane's queue is empty or the schedule is full. -/
def admissionStops (s : State) : Prop :=
  (laneOf (floorLane s.floor.state) s).queue = [] ∨ 96 ≤ s.schedule.length

theorem admitUpTo_of_stops {s : State} (h : admissionStops s) (fuel : Nat) :
    admitUpTo fuel s = s := by
  cases fuel with
  | zero => rfl
  | succ n =>
    rw [admitUpTo]
    split
    · rfl
    · next hroom =>
      simp only [h.resolve_right hroom]

theorem admitUpTo_succ {s : State} {t : Token} {rest : List Token} (fuel : Nat)
    (h : (laneOf (floorLane s.floor.state) s).queue = t :: rest) (hroom : s.schedule.length < 96) :
    admitUpTo (fuel + 1) s = admitUpTo fuel (admitToken (floorLane s.floor.state) t rest s) := by
  rw [admitUpTo, if_neg (Nat.not_le.mpr hroom)]
  simp only [h]

theorem not_admissionStops {s : State} (h : ¬ admissionStops s) :
    ∃ t rest, (laneOf (floorLane s.floor.state) s).queue = t :: rest ∧ s.schedule.length < 96 := by
  rw [admissionStops, not_or] at h
  obtain ⟨t, rest, hqueue⟩ := List.exists_cons_of_ne_nil h.1
  exact ⟨t, rest, hqueue, Nat.lt_of_not_le h.2⟩

/-- Any bound that is not below the number of tokens waiting gives the whole run. -/
theorem admitUpTo_eq_admissionRun {fuel : Nat} {s : State} (h : queuedTokens s ≤ fuel) :
    admitUpTo fuel s = admissionRun s ∧ admissionStops (admissionRun s) := by
  rw [admissionRun]
  generalize hn : queuedTokens s = n at h ⊢
  induction n using Nat.strong_induction_on generalizing fuel s with
  | _ n ih =>
    by_cases hstop : admissionStops s
    · rw [admitUpTo_of_stops hstop, admitUpTo_of_stops hstop]
      exact ⟨rfl, hstop⟩
    · obtain ⟨t, rest, hqueue, hroom⟩ := not_admissionStops hstop
      have hlt := queuedTokens_admitToken_lt hqueue
      obtain ⟨n, rfl⟩ : ∃ m, n = m + 1 := Nat.exists_eq_succ_of_ne_zero (by omega)
      obtain ⟨fuel, rfl⟩ : ∃ m, fuel = m + 1 := Nat.exists_eq_succ_of_ne_zero (by omega)
      rw [admitUpTo_succ fuel hqueue hroom, admitUpTo_succ n hqueue hroom]
      rw [hn] at hlt
      obtain ⟨hfuel, -⟩ := ih _ hlt (fuel := fuel) rfl (by omega)
      obtain ⟨hn', hstops⟩ := ih _ hlt (fuel := n) rfl (by omega)
      rw [hfuel, hn']
      exact ⟨rfl, hstops⟩

theorem admissionRun_of_stops {s : State} (h : admissionStops s) : admissionRun s = s :=
  admitUpTo_of_stops h _

theorem admissionRun_stops (s : State) : admissionStops (admissionRun s) :=
  (admitUpTo_eq_admissionRun (le_refl _)).2

/-- A run that goes on admits the floor lane's head and is the run after it. -/
theorem admissionRun_step {s : State} {t : Token} {rest : List Token}
    (h : (laneOf (floorLane s.floor.state) s).queue = t :: rest) (hroom : s.schedule.length < 96) :
    admissionRun s = admissionRun (admitToken (floorLane s.floor.state) t rest s) := by
  have hlt := queuedTokens_admitToken_lt h
  rw [admissionRun]
  generalize queuedTokens s = n at hlt
  obtain ⟨n, rfl⟩ : ∃ m, n = m + 1 := Nat.exists_eq_succ_of_ne_zero (by omega)
  rw [admitUpTo_succ n h hroom, (admitUpTo_eq_admissionRun (by omega)).1]

/-- What every admission keeps, an admission run keeps. -/
theorem admissionRun_induction {P : State → Prop} {s : State} (hs : P s)
    (hstep : ∀ u t rest, P u → (laneOf (floorLane u.floor.state) u).queue = t :: rest →
      u.schedule.length < 96 → P (admitToken (floorLane u.floor.state) t rest u)) :
    P (admissionRun s) := by
  generalize hn : queuedTokens s = n
  induction n using Nat.strong_induction_on generalizing s with
  | _ n ih =>
    by_cases hstop : admissionStops s
    · rwa [admissionRun_of_stops hstop]
    · obtain ⟨t, rest, hqueue, hroom⟩ := not_admissionStops hstop
      have hlt := queuedTokens_admitToken_lt hqueue
      rw [admissionRun_step hqueue hroom]
      exact ih _ (by omega) (hstep s t rest hs hqueue hroom) rfl

/-- The head of its own lane's queue enters as the statements say. -/
theorem entered_eq_admitted {x : Lane} {t : Token} (h : t.id.lane = x) (rest : List Token)
    (s : State) : entered x t rest s = admitted t rest s := by
  subst h
  obtain ⟨⟨x, n⟩, kind, sentEnd, attach, text, arrival, speech⟩ := t
  have hother : ∀ st, retagged (otherLane x) [⟨x, n⟩] admitTag st = st :=
    retagged_of_lane_ne (by simpa using (otherLane_ne x).symm) _
  cases x <;> simp only [otherLane] at hother <;>
    simp only [entered, admitted, noticed, setQueue, setLane, laneOf, hother]

theorem admitToken_eq_admitted {x : Lane} {t : Token} {rest : List Token} {s : State}
    (h : t.id.lane = x) (hfloor : floorLane s.floor.state = x) :
    admitToken x t rest s =
      if t.sentEnd = true ∧ passTarget s.floor.state ≠ none then passed x (admitted t rest s)
      else admitted t rest s := by
  have hkept : (admitted t rest s).floor = s.floor := by simp [admitted]
  rw [admitToken_eq, entered_eq_admitted h, sentEndAdmitted, hkept, h, completePass_eq_passed]
  by_cases hend : t.sentEnd = true <;> by_cases hpass : passTarget s.floor.state = none <;>
    simp [hend, hpass, hfloor]

/-- Settles O36: the run's stop, its step, and that it goes on to a stop. -/
theorem admissionRunsAdmitTheFloorLane : Obligations.AdmissionRunsAdmitTheFloorLane := by
  refine ⟨fun s hstop => admissionRun_of_stops hstop, fun s t rest hqueue hlane hroom => ?_,
    fun s => admissionRun_stops s⟩
  dsimp only
  rw [admissionRun_step hqueue hroom, admitToken_eq_admitted hlane rfl]

/-! ### Release passes (R61 to R65) -/

/-- The tokens that a release pass can come to judge: those timed and those that wait. -/
def judgeable (s : State) : Nat := s.schedule.length + queuedTokens s

theorem judgeable_admissionRun_le (s : State) : judgeable (admissionRun s) ≤ judgeable s := by
  refine admissionRun_induction (P := fun u => judgeable u ≤ judgeable s) (le_refl _) ?_
  intro u t rest hu hqueue _
  have hlt := queuedTokens_admitToken_lt hqueue
  have hlen := schedule_admitToken_length (floorLane u.floor.state) t rest u
  simp only [judgeable] at hu ⊢
  omega

theorem discardHead_eq (t : Token) (rest : List Token) (s : State) :
    discardHead t rest s = admissionRun (discarded t rest s) := by
  rw [discardHead, notice_eq_noticed, tagDiscarded_eq, discarded]
  simp only [count, bumpCounter, countUp_eq_up]

/-- What a release composes is what the statements say (R80, R82, R84, R85). -/
theorem composition_eq (t : Token) (c : Composer) :
    composition t c.cursor c.layout.width = (needsRoll t c, groupCells t c) := by
  have hspace : (if 0 < c.cursor ∧ t.attach = false then 1 else 0) = (needsSpace t c).toNat := by
    rw [needsSpace]
    by_cases hcursor : 0 < c.cursor <;> cases t.attach <;> simp [hcursor]
  cases hkind : t.kind with
  | speaker | paragraph => simp only [composition, needsRoll, groupCells, hkind]
  | word =>
    simp only [composition, needsRoll, groupCells, releasedText, hkind, hspace, List.length_take]
    by_cases hroll :
        c.layout.width < c.cursor + (needsSpace t c).toNat + min c.layout.width t.text.length
    · simp [hroll]
    · cases hsp : needsSpace t c <;>
        simp only [hsp, Bool.toNat_false, Bool.toNat_true, Nat.add_zero] at hroll <;>
        simp [hroll]

theorem columnsOf_eq {cs : List Cell} (h : ∀ c ∈ cs, isGroupCell c = true) :
    columnsOf cs = columns cs := by
  refine congrArg List.sum (List.map_congr_left fun c hc => ?_)
  cases c <;> first | rfl | exact absurd (h _ hc) nofun

/-- A release composes group cells only. -/
theorem isGroupCell_of_mem_composition {t : Token} {cursor width : Nat} {c : Cell}
    (h : c ∈ (composition t cursor width).2) : isGroupCell c = true := by
  cases hkind : t.kind with
  | speaker => simp_all [composition, isGroupCell]
  | paragraph => simp_all [composition]
  | word =>
    simp only [composition, hkind] at h
    generalize (if 0 < cursor ∧ t.attach = false then 1 else 0) = sp at h
    split at h <;> simp only [List.mem_append, List.mem_replicate, List.mem_map] at h
    · obtain ⟨a, -, rfl⟩ := h
      rfl
    · rcases h with ⟨-, rfl⟩ | ⟨a, -, rfl⟩ <;> rfl

/-- The group of a release joins the tail, with its record and its span, where it has cells (R82,
R84, R85). -/
theorem composeGroup_eq {t : Token} {cs : List Cell} (hcs : ∀ c ∈ cs, isGroupCell c = true)
    (s : State) :
    composeGroup t cs s = { s with
      emission := { s.emission with heldCurrent := s.emission.heldCurrent || !cs.isEmpty }
      composer :=
        { layout := s.composer.layout
          cells := s.composer.cells ++ cs
          groups := s.composer.groups ++
            (if cs = [] then [] else [{ id := t.id, counts := some (t.speech, t.arrival),
                                        composed := cs.length, taken := 0, columnsTaken := 0 }])
          cursor := s.composer.cursor + columns cs
          spans := s.composer.spans ++
            (if cs = [] then [] else
              [{ id := t.id, start := s.composer.cursor, columns := columns cs }]) } } := by
  by_cases hnil : cs = []
  · subst hnil
    simp [composeGroup, columns]
  · rw [composeGroup, if_neg (by simpa using hnil), appendCells_eq hnil]
    simp only [columnsOf_eq hcs, if_neg hnil, List.isEmpty_eq_false_iff.mpr hnil, Bool.not_false,
      Bool.or_true]


theorem composeRoll_eq (s : State) :
    composeRoll s = closed { s with
      composer := { s.composer with cells := s.composer.cells ++ [.roll] }
      emission := { s.emission with heldCurrent := true } } := by
  rw [composeRoll, closeRow_eq_closed, appendCells_eq (by simp)]

/-- The head's release is that of the statements (R63, R81 to R85, R99). -/
theorem releaseHead_eq (t : Token) (rest : List Token) (s : State) :
    releaseHead t rest s = admissionRun (released t rest s) := by
  have hcs : ∀ c ∈ groupCells t s.composer, isGroupCell c = true := fun c hc =>
    isGroupCell_of_mem_composition (by rw [composition_eq]; exact hc)
  rw [releaseHead, notice_eq_noticed, tagReleased_eq, composeToken, composeGroup_eq hcs, released,
    composition_eq, countIf_truncated]
  cases needsRoll t s.composer with
  | false => simp
  | true => simp [composeRoll_eq, closed]

theorem groupFits_iff (t : Token) (s : State) :
    groupFits t s = true ↔
      let g := composition t s.composer.cursor s.composer.layout.width
      g.1.toNat + g.2.length + 8 ≤ 64 - s.composer.cells.length := by
  rw [groupFits, decide_eq_true_iff]
  simp only [composition_eq, cellsNeeded, freePlaces]

theorem staleNow_iff (t : Token) (s : State) :
    staleNow t s = true ↔
      (s.retiming.horizon : Int) < (s.timebase.e - dueOf t s).toInt := by
  simp only [staleNow, frameDiff, tokenDue_eq, decide_eq_true_eq]

theorem sendSpan_eq (t : Token) : sendSpan t = spanOf t := by
  cases hkind : t.kind with
  | word => simp only [sendSpan, sendCharacters, spanOf, hkind]
  | speaker | paragraph => simp [sendSpan, sendCharacters, spanOf, hkind]

theorem ripe_iff (t : Token) (s : State) :
    ripe t s = true ↔
      (s.timebase.e - (dueOf t s - BitVec.ofNat 32 (spanOf t) + 1)).toNat < 2147483648 := by
  simp only [ripe, atOrAfter, tokenDue_eq, sendSpan_eq, frames, decide_eq_true_eq]

/-- One head judged: the part after it, or none where the pass ends. -/
def judgedHead (s : State) : Option State :=
  match s.schedule with
  | [] => none
  | t :: rest =>
    if staleNow t s then some (admissionRun (discarded t rest s))
    else if ripe t s && groupFits t s then some (admissionRun (released t rest s))
    else none

theorem releaseUpTo_succ (n : Nat) (s : State) :
    releaseUpTo (n + 1) s =
      match judgedHead s with
      | none => s
      | some u => releaseUpTo n u := by
  rw [releaseUpTo, judgedHead]
  cases s.schedule with
  | nil => rfl
  | cons t rest =>
    simp only [discardHead_eq, releaseHead_eq]
    cases staleNow t s <;> cases ripe t s <;> cases groupFits t s <;> simp

/-- A head that is judged leaves the schedule, and the run after it only moves tokens. -/
theorem judgeable_lt_of_judgedHead {s u : State} (h : judgedHead s = some u) :
    judgeable u < judgeable s := by
  have hnoticed : ∀ ids f v, judgeable (noticed ids f v) = judgeable v := by
    intro ids f v
    simp [judgeable, queuedTokens_eq .a, noticed, laneOf, otherLane]
  unfold judgedHead at h
  split at h
  · cases h
  · next t rest hsched =>
    have hlt : rest.length + queuedTokens s < judgeable s := by simp [judgeable, hsched]
    split_ifs at h
    · obtain rfl := Option.some.inj h
      refine (judgeable_admissionRun_le _).trans_lt ?_
      rw [discarded, hnoticed]
      exact hlt
    · obtain rfl := Option.some.inj h
      refine (judgeable_admissionRun_le _).trans_lt ?_
      rw [released, hnoticed]
      cases (composition t s.composer.cursor s.composer.layout.width).1 <;> exact hlt

theorem releaseUpTo_of_none {s : State} (h : judgedHead s = none) (n : Nat) :
    releaseUpTo n s = s := by
  cases n with
  | zero => rfl
  | succ n => rw [releaseUpTo_succ, h]

/-- Any bound that is not below the number of tokens to judge gives the whole pass. -/
theorem releaseUpTo_eq {m n : Nat} {s : State} (hm : judgeable s ≤ m) (hn : judgeable s ≤ n) :
    releaseUpTo m s = releaseUpTo n s := by
  induction m generalizing n s with
  | zero =>
    cases hhead : judgedHead s with
    | none => rw [releaseUpTo_of_none hhead, releaseUpTo_of_none hhead]
    | some u =>
      have := judgeable_lt_of_judgedHead hhead
      omega
  | succ m ih =>
    cases hhead : judgedHead s with
    | none => rw [releaseUpTo_of_none hhead, releaseUpTo_of_none hhead]
    | some u =>
      have hlt := judgeable_lt_of_judgedHead hhead
      obtain ⟨n, rfl⟩ : ∃ k, n = k + 1 := Nat.exists_eq_succ_of_ne_zero (by omega)
      rw [releaseUpTo_succ, releaseUpTo_succ, hhead]
      exact ih (by omega) (by omega)

theorem releasePass_of_run {s : State} (h : s.service = .run) :
    releasePass s = releaseUpTo (judgeable s) s := by
  rw [releasePass, h]
  rfl

theorem releasePass_of_held {s : State} (h : s.service = .held) : releasePass s = s := by
  rw [releasePass, h]

theorem judgedHead_service {s u : State} (h : judgedHead s = some u) : u.service = s.service := by
  unfold judgedHead at h
  split at h
  · cases h
  · split_ifs at h
    · obtain rfl := Option.some.inj h
      simp [discarded, noticed]
    · obtain rfl := Option.some.inj h
      simp only [admissionRun_frame, released, noticed]
      cases (composition _ s.composer.cursor s.composer.layout.width).1 <;> rfl

/-- A pass in RUN that judges a head goes on from there. -/
theorem releasePass_of_some {s u : State} (hrun : s.service = .run) (h : judgedHead s = some u) :
    releasePass s = releasePass u := by
  have hlt := judgeable_lt_of_judgedHead h
  rw [releasePass_of_run hrun, releasePass_of_run ((judgedHead_service h).trans hrun)]
  obtain ⟨n, hn⟩ : ∃ k, judgeable s = k + 1 := Nat.exists_eq_succ_of_ne_zero (by omega)
  rw [hn, releaseUpTo_succ, h]
  exact releaseUpTo_eq (by omega) (le_refl _)

theorem releasePass_of_none {s : State} (h : judgedHead s = none) : releasePass s = s := by
  unfold releasePass
  split
  · rfl
  · exact releaseUpTo_of_none h _

/-- What every judged head keeps, a release pass keeps. -/
theorem releasePass_induction {P : State → Prop} {s : State} (hs : P s)
    (hstep : ∀ u v, P u → judgedHead u = some v → P v) : P (releasePass s) := by
  cases hservice : s.service with
  | held => rwa [releasePass_of_held hservice]
  | run =>
    generalize hn : judgeable s = n
    induction n using Nat.strong_induction_on generalizing s with
    | _ n ih =>
      cases hhead : judgedHead s with
      | none => rwa [releasePass_of_none hhead]
      | some u =>
        have hlt := judgeable_lt_of_judgedHead hhead
        rw [releasePass_of_some hservice hhead]
        exact ih _ (hn ▸ hlt) (hstep s u hs hhead) ((judgedHead_service hhead).trans hservice) rfl

/-- Settles O37: the pass stops in HELD and on an empty schedule, and else at a head that is neither
stale nor ripe and fitting. -/
theorem releasePassJudgesHeads : Obligations.ReleasePassJudgesHeads := by
  refine ⟨fun s h => ?_, fun s t rest hrun hsched => ?_⟩
  · rcases h with hheld | hempty
    · exact releasePass_of_held hheld
    · exact releasePass_of_none (by rw [judgedHead, hempty])
  · dsimp only
    simp only [← staleNow_iff, ← ripe_iff, ← groupFits_iff t s]
    have hhead : judgedHead s =
        if staleNow t s then some (admissionRun (discarded t rest s))
        else if ripe t s && groupFits t s then some (admissionRun (released t rest s))
        else none := by
      rw [judgedHead, hsched]
    refine ⟨fun hstale => ?_, fun hstale hripe => ?_, fun hstale hripe hfits => ?_,
      fun hstale _ hfits => ?_⟩
    · exact releasePass_of_some hrun (hhead.trans (if_pos hstale))
    · exact releasePass_of_none (by simp [hhead, hstale, hripe])
    · exact releasePass_of_some hrun (by simp [hhead, hstale, hripe, hfits])
    · exact releasePass_of_none (by simp [hhead, hstale, hfits])

end Sys2Proof.Schedules
end

section
/-! SUPPORT. Lane records at their commit (02_lane_records.md): a WORD's text, the creation of a token,
the serial it receives, settled. -/

namespace Sys2Proof.Records

open Sys2Proof.Machine Sys2Proof.Expect Sys2Proof.ProgrammeTime Sys2Proof.FloorAndHandoff
  Sys2Proof.Effects Sys2Proof.Accesses Sys2Proof.Schedules

/-! ### A WORD's text (R27) -/

theorem accepted_eq (c : Byte) :
    accepted c = decide ((0x20 ≤ c.toNat ∧ c.toNat ≤ 0x7E) ∨ 0xA0 ≤ c.toNat) := by
  simp [accepted, Bool.decide_or]

theorem substitute_eq_shown : substitute = shown := by
  funext c
  simp only [substitute, shown, accepted_eq, decide_eq_true_eq]
  rfl

theorem charAt_eq (words : List Word) (i : Nat) :
    charAt words i = BitVec.ofNat 8 (if i % 2 = 0 then (words.getD (i / 2) 0).toNat / 256
      else (words.getD (i / 2) 0).toNat % 256) := by
  apply BitVec.eq_of_toNat_eq
  simp only [charAt]
  generalize words.getD (i / 2) 0 = w
  split <;> simp [highByte, lowByte, BitVec.extractLsb'_toNat, Nat.shiftRight_eq_div_pow]

theorem charsOf_eq (words : List Word) (n : Nat) : charsOf words n = characters words n :=
  List.map_congr_left fun i _ => charAt_eq words i

theorem substitutions_eq (text : List Byte) :
    substitutions text = (text.filter fun c =>
      !decide ((0x20 ≤ c.toNat ∧ c.toNat ≤ 0x7E) ∨ 0xA0 ≤ c.toNat)).length := by
  simp only [substitutions, accepted_eq]

theorem makeWord_eq (x : Lane) (sentEnd attach : Bool) (length : BitVec 6) (chars : List Word)
    (s : State) :
    makeWord x sentEnd attach length chars s =
      tokenRecord x .word sentEnd attach (text length chars)
        { s with counters := textCounters length chars s.counters } := by
  rw [makeWord, countIf_truncated, countTimes_substituted, charsOf_eq, substitute_eq_shown,
    substitutions_eq]
  rfl

theorem whileReleased_of_high {s : State} (h : s.resetLow = false) (f : State → State) :
    whileReleased f s = f s := by
  rw [whileReleased, h]
  rfl

/-- A record that makes a token hands it to its lane, its text built and counted. -/
theorem exec_of_makes {c : Instr} {s : State} {x : Lane} {kind : TokenKind} {sentEnd attach : Bool}
    {txt : List Byte} {k : Counters} (h : makes c s = some (x, kind, sentEnd, attach, txt, k))
    (hlow : s.resetLow = false) (hfill : s.image.state ≠ .filling) :
    exec c s = .next (tokenRecord x kind sentEnd attach txt { s with counters := k }) := by
  cases c with
  | wordRecord y se at' length chars =>
    simp only [makes] at h
    split at h
    · cases h
    · next hlen =>
      cases h
      simp only [exec, execWordRecord, done, whileReleased_of_high hlow, commitWord,
        unlessFilling, if_neg hlen, if_neg hfill, makeWord_eq]
  | speakerRecord y se at' =>
    cases h
    simp only [exec, execSpeakerRecord, done, whileReleased_of_high hlow, commitPlain,
      unlessFilling, if_neg hfill]
  | breakRecord y se at' =>
    cases h
    simp only [exec, execBreakRecord, done, whileReleased_of_high hlow, commitPlain,
      unlessFilling, if_neg hfill]
  | _ => cases h

/-! ### Creating a token (R31, R34, R45, R95) -/

/-- A token joins its queue and its stack; in the floor lane an admission run follows. -/
theorem createToken_eq (x : Lane) (kind : TokenKind) (sentEnd attach : Bool) (txt : List Byte)
    (s : State) :
    createToken x kind sentEnd attach txt s =
      let u := queued (token x kind sentEnd attach txt s) s
      if floorLane s.floor.state = x then admissionRun u else u := by
  simp only [createToken, countIf_bunched, bunches_eq_behind, clampSpeech_eq_raised, setLane_frame]
  cases kind <;> rfl

theorem shedHead_eq {x : Lane} {t : Token} {rest : List Token} {s : State}
    (h : (laneOf x s).queue = t :: rest) (hlane : t.id.lane = x) :
    shedHead x s = setLane x { laneOf x s with
        queue := rest, stack := retagged x [t.id] dropTag (laneOf x s).stack }
      { s with counters := { s.counters with standbyShed := up s.counters.standbyShed } } := by
  subst hlane
  have hown := retagged_singleton t.id dropTag
  simp only [shedHead, h, notice, setStack, laneOf_setLane_same, setQueue, tagDiscarded_eq, hown]
  cases t.id.lane <;> simp [count, bumpCounter, countUp_eq_up, setLane]

theorem tokenRecord_of_room {x : Lane} {s : State} (h : (laneOf x s).queue.length < 48)
    (kind : TokenKind) (sentEnd attach : Bool) (txt : List Byte) :
    tokenRecord x kind sentEnd attach txt s = createToken x kind sentEnd attach txt s :=
  if_neg (Nat.not_le.mpr h)

theorem tokenRecord_of_full_floor {x : Lane} {s : State} (h : 48 ≤ (laneOf x s).queue.length)
    (hfloor : floorLane s.floor.state = x) (kind : TokenKind) (sentEnd attach : Bool)
    (txt : List Byte) :
    tokenRecord x kind sentEnd attach txt s = { s with
      counters := { s.counters with laneOverrun := up s.counters.laneOverrun }
      attention := s.attention ||| 0x08 } := by
  rw [tokenRecord, if_pos h, if_pos hfloor]
  simp [raise, count, bumpCounter, countUp_eq_up, causeBit]

theorem tokenRecord_of_full_standby {x : Lane} {s : State} (h : 48 ≤ (laneOf x s).queue.length)
    (hfloor : floorLane s.floor.state ≠ x) (kind : TokenKind) (sentEnd attach : Bool)
    (txt : List Byte) :
    tokenRecord x kind sentEnd attach txt s =
      createToken x kind sentEnd attach txt (shedHead x s) := by
  rw [tokenRecord, if_pos h, if_neg hfloor]

theorem unlessFilling_of_filling {s : State} (h : s.image.state = .filling) (f : State → State) :
    unlessFilling f s = { s with counters := { s.counters with
      droppedDuringRestore := up s.counters.droppedDuringRestore } } := by
  simp [unlessFilling, h, count, bumpCounter, countUp_eq_up]

/-- Settles O30: unknown kinds, records during a fill, and the refusal of a full floor queue. -/
theorem recordsThatMakeNothing : Obligations.RecordsThatMakeNothing := by
  intro s x hlow
  refine ⟨fun kind => ?_, fun hfill => ?_, fun hfill hfloor hfull => ?_⟩
  · simp [exec, execUnknownKind, done, whileReleased_of_high hlow, commitUnknown, count, bumpCounter,
      countUp_eq_up]
  · refine ⟨fun sentEnd attach length chars hlen => ?_, fun sentEnd attach => ?_,
      fun sentEnd attach => ?_, fun n hn => ?_⟩
    · simp only [exec, execWordRecord, done, whileReleased_of_high hlow, commitWord, if_neg hlen,
        unlessFilling_of_filling hfill]
    · simp only [exec, execSpeakerRecord, done, whileReleased_of_high hlow, commitPlain,
        unlessFilling_of_filling hfill]
    · simp only [exec, execBreakRecord, done, whileReleased_of_high hlow, commitPlain,
        unlessFilling_of_filling hfill]
    · simp only [exec, execCorrect, done, whileReleased_of_high hlow, commitCorrect, if_neg hn,
        unlessFilling_of_filling hfill]
  · intro c kind sentEnd attach txt k hmakes
    have hfull' : 48 ≤ (laneOf x { s with counters := k }).queue.length := by
      cases x <;> exact hfull
    rw [exec_of_makes hmakes hlow hfill]
    exact congrArg _ (tokenRecord_of_full_floor hfull' hfloor kind sentEnd attach txt)

/-- Settles O31: with room the token joins the tail; a full queue sheds its head first. -/
theorem standbyRecordsWait : Obligations.StandbyRecordsWait := by
  intro s c x kind sentEnd attach txt k hlow hfill hmakes hfloor u
  have hqueue : (laneOf x u).queue = (laneOf x s).queue := by cases x <;> rfl
  rw [exec_of_makes hmakes hlow hfill]
  refine ⟨fun hroom => ?_, fun t rest hhead hlane hfull => ?_⟩
  · rw [tokenRecord_of_room (by rwa [hqueue]), createToken_eq]
    exact congrArg _ (if_neg hfloor)
  · have hfull' : 48 ≤ (laneOf x u).queue.length := by rwa [hqueue]
    intro l v
    have hshed : shedHead x u = v := by
      rw [shedHead_eq (hqueue.trans hhead) hlane]
      cases x <;> rfl
    have hfloor' : floorLane v.floor.state ≠ x := by simpa [v] using hfloor
    rw [tokenRecord_of_full_standby hfull' hfloor, hshed, createToken_eq]
    exact congrArg _ (if_neg hfloor')

theorem queued_queue (t : Token) (s : State) :
    (laneOf t.id.lane (queued t s)).queue = (laneOf t.id.lane s).queue ++ [t] := by
  rw [queued, laneOf_setLane_same]

theorem scheduled_queue (t : Token) (s : State) :
    (laneOf t.id.lane (scheduled t s)).queue = (laneOf t.id.lane s).queue := by
  rw [scheduled, laneOf_setLane_same]

/-- A token admitted as it is created has its whole lane's queue to itself. -/
theorem admitted_queued (t : Token) (s : State) (h : (laneOf t.id.lane s).queue = []) :
    admitted t [] (queued t s) = scheduled t s := by
  simp only [admitted, queued, scheduled]
  cases hx : t.id.lane <;> rw [hx] at h <;> simp_all [setLane, laneOf, stampCounters]

/-- Settles O32: the run after a record of the floor lane, with the schedule full, and with the queue
empty and room in the schedule. -/
theorem floorRecordsAreAdmitted : Obligations.FloorRecordsAreAdmitted := by
  intro s c x kind sentEnd attach txt k hlow hfill hmakes hfloor hroom u t
  have hqueue : (laneOf x u).queue = (laneOf x s).queue := by cases x <;> rfl
  have hexec : exec c s = .next (admissionRun (queued t u)) := by
    rw [exec_of_makes hmakes hlow hfill, tokenRecord_of_room (by rwa [hqueue]), createToken_eq]
    exact congrArg _ (if_pos hfloor)
  have hfloor' : floorLane (queued t u).floor.state = t.id.lane := by simp [queued, hfloor, u, t, token]
  have hsched : (queued t u).schedule = s.schedule := by simp [queued, u]
  refine ⟨hexec, fun hfull => ?_, fun hempty hplace => ?_⟩
  · rw [hexec, admissionRun_of_stops (Or.inr (by rwa [hsched]))]
  · have hhead : (laneOf (floorLane (queued t u).floor.state) (queued t u)).queue = [t] := by
      rw [hfloor', queued_queue]
      exact congrArg (· ++ [t]) (hqueue.trans hempty)
    have hflag : t.sentEnd = sentEnd := rfl
    have hpass : (queued t u).floor = s.floor := by simp [queued, u]
    rw [hexec, admissionRun_step hhead (by rwa [hsched]), hfloor', admitToken_eq_admitted rfl hfloor',
      admitted_queued t u (hqueue.trans hempty), hflag, hpass]
    split_ifs
    · rfl
    · refine congrArg _ (admissionRun_of_stops (Or.inl ?_))
      have hempty' : (laneOf t.id.lane u).queue = [] := hqueue.trans hempty
      have hstay : (scheduled t u).floor = s.floor := by simp [scheduled, u]
      rw [hstay, hfloor]
      exact (scheduled_queue t u).trans hempty'

/-! ### Free serials (R30) -/

theorem mem_heldSerials {x : Lane} {s : State} {n : BitVec 12} :
    n ∈ heldSerials x s ↔ held x s n := by
  have hid : ∀ i : TokenId, (i.lane = x ∧ i.serial = n) ↔ i = ⟨x, n⟩ := by
    rintro ⟨y, m⟩
    simp
  simp only [heldSerials, held, List.mem_map, List.mem_filter, List.mem_append, decide_eq_true_eq]
  constructor
  · rintro ⟨i, ⟨hi, hlane⟩, hn⟩
    obtain rfl := (hid i).mp ⟨hlane, hn⟩
    simpa only [or_assoc] using hi
  · intro h
    exact ⟨⟨x, n⟩, ⟨by simpa only [or_assoc] using h, rfl⟩, rfl⟩

theorem heldSerials_length_le (x : Lane) (s : State) :
    (heldSerials x s).length ≤ (laneOf x s).queue.length + s.schedule.length +
      s.composer.groups.length + s.composer.spans.length + (laneOf x s).stack.length := by
  rw [heldSerials, List.length_map]
  exact (List.length_filter_le _ _).trans_eq (by simp [Nat.add_assoc])

/-- The search passes held serials only, and stops at a free one or where its bound is reached. -/
theorem freeSerial_passes (l : List (BitVec 12)) (fuel : Nat) (n : BitVec 12) :
    ∃ j ≤ fuel, freeSerial l fuel n = n + BitVec.ofNat 12 j ∧
      (∀ k < j, n + BitVec.ofNat 12 k ∈ l) ∧ (j < fuel → n + BitVec.ofNat 12 j ∉ l) := by
  induction fuel generalizing n with
  | zero => exact ⟨0, le_refl _, by simp [freeSerial], nofun, nofun⟩
  | succ fuel ih =>
    by_cases hn : n ∈ l
    · obtain ⟨j, hj, hfree, hpassed, hstop⟩ := ih (n + 1)
      have hshift : ∀ k, n + 1 + BitVec.ofNat 12 k = n + BitVec.ofNat 12 (k + 1) := fun k => by
        rw [BitVec.ofNat_add, BitVec.add_assoc, BitVec.add_comm 1]
        rfl
      simp only [hshift] at hfree hpassed hstop
      refine ⟨j + 1, by omega, by rw [freeSerial, if_pos hn, hfree], fun k hk => ?_,
        fun h => hstop (by omega)⟩
      cases k with
      | zero => simpa using hn
      | succ k => exact hpassed k (by omega)
    · exact ⟨0, by omega, by simp [freeSerial, hn], nofun, fun _ => by simpa using hn⟩

/-- Serials that differ by less than the whole circle are different. -/
theorem nodup_serials (n : BitVec 12) {m : Nat} (h : m ≤ 4096) :
    ((List.range m).map fun k => n + BitVec.ofNat 12 k).Nodup := by
  refine (List.nodup_map_iff_inj_on List.nodup_range).mpr fun i hi j hj hij => ?_
  have hi' := List.mem_range.mp hi
  have hj' := List.mem_range.mp hj
  bv_omega

/-- Settles O33: a search as long as the list of held serials cannot pass only held ones. -/
theorem serialsAreFree : Obligations.SerialsAreFree := by
  intro s x hsmall from' n
  have hlen := heldSerials_length_le x s
  obtain ⟨j, hj, hfree, hpassed, hstop⟩ := freeSerial_passes (heldSerials x s)
    (heldSerials x s).length from'
  have hn : n = from' + BitVec.ofNat 12 j := hfree
  have hdist : (n - from').toNat = j := by
    rw [hn]
    bv_omega
  rw [hdist]
  refine ⟨fun hheld => ?_, fun k hk => mem_heldSerials.mp (hpassed k hk)⟩
  have hmem : from' + BitVec.ofNat 12 j ∈ heldSerials x s := hn ▸ mem_heldSerials.mpr hheld
  have hfull : j = (heldSerials x s).length := by
    by_contra hne
    exact hstop (by omega) hmem
  have hsub : ((List.range (j + 1)).map fun k => from' + BitVec.ofNat 12 k) ⊆ heldSerials x s := by
    intro m hm
    obtain ⟨k, hk, rfl⟩ := List.mem_map.mp hm
    rcases Nat.lt_succ_iff_lt_or_eq.mp (List.mem_range.mp hk) with hlt | rfl
    · exact hpassed k hlt
    · exact hmem
  have := ((nodup_serials from' (m := j + 1) (by omega)).subperm hsub).length_le
  simp only [List.length_map, List.length_range] at this
  omega

end Sys2Proof.Records
end

section
/-! SUPPORT. Corrections (06_corrections.md): what one pop does by its entry's tag, and the undoing of
the last span, settled. -/

namespace Sys2Proof.Corrections

open Sys2Proof.Machine Sys2Proof.Expect Sys2Proof.ProgrammeTime Sys2Proof.Effects
  Sys2Proof.Records

/-! ### Pops (R103 to R106) -/

theorem exec_correct {s : State} (hlow : s.resetLow = false) (hfill : s.image.state ≠ .filling)
    (x : Lane) {n : BitVec 6} (hn : n ≠ 0) :
    exec (.correct x n) s = .next (correctLane x n.toNat s) := by
  simp only [exec, execCorrect, done, whileReleased_of_high hlow, commitCorrect, if_neg hn,
    unlessFilling, if_neg hfill]

theorem correctLane_of_nil {x : Lane} {s : State} (h : (laneOf x s).stack = []) (n : Nat) :
    correctLane x (n + 1) s =
      { s with counters := { s.counters with underflows := up s.counters.underflows } } := by
  simp [correctLane, h, count, bumpCounter, countUp_eq_up]

theorem correctLane_of_cons {x : Lane} {s : State} {en : StackEntry} {rest : List StackEntry}
    (h : (laneOf x s).stack = en :: rest) (n : Nat) :
    correctLane x (n + 1) s = correctLane x n (popAction x en (setStack x rest s)) := by
  simp only [correctLane, h]

/-- One pop is the action of the top entry, with the entry gone. -/
theorem exec_correct_one {s : State} (hlow : s.resetLow = false) (hfill : s.image.state ≠ .filling)
    {x : Lane} {en : StackEntry} {rest : List StackEntry} (h : (laneOf x s).stack = en :: rest) :
    exec (.correct x 1) s = .next (popAction x en (setStack x rest s)) := by
  rw [exec_correct hlow hfill x (by decide)]
  exact congrArg _ (correctLane_of_cons h 0)

theorem lateCorrection_eq (s : State) :
    lateCorrection s = { s with counters := { s.counters with
      lateCorrections := up s.counters.lateCorrections } } := by
  simp [lateCorrection, count, bumpCounter, countUp_eq_up]

theorem setStack_counters (x : Lane) (st : List StackEntry) (s : State) :
    (setStack x st s).counters = s.counters := by simp

/-- An entry of the row pops as its token's span asks (R106). -/
theorem popAction_of_row {x : Lane} {en : StackEntry}
    (h : en.tag = .composed ∨ en.tag = .sending ∨ en.tag = .shown) (s : State) :
    popAction x en s = popComposed en.id s := by
  rcases h with h | h | h <;> simp only [popAction, h]

theorem popComposed_of_last {s : State} {id : TokenId} {left : List Span} {sp : Span}
    (h : s.composer.spans = left ++ [sp]) (hid : sp.id = id) : popComposed id s = undoLast sp s := by
  simp only [popComposed, h, List.getLast?_concat, if_pos hid]

theorem popComposed_of_not_last {s : State} {id : TokenId}
    (h : ∀ left sp, s.composer.spans = left ++ [sp] → sp.id ≠ id) :
    popComposed id s = lateCorrection s := by
  rcases List.eq_nil_or_concat s.composer.spans with hnil | ⟨left, sp, hlast⟩
  · simp [popComposed, hnil]
  · rw [List.concat_eq_append] at hlast
    simp [popComposed, hlast, h left sp hlast]

/-- Settles O34: the underflow, the pops one after another, and each tag's effect. -/
theorem correctPopsEntries : Obligations.CorrectPopsEntries := by
  intro s x hlow hfill
  refine ⟨fun hempty n hn => ?_, fun en rest hstack => ?_⟩
  · obtain ⟨m, hm⟩ : ∃ m, n.toNat = m + 1 :=
      Nat.exists_eq_succ_of_ne_zero fun h => hn (BitVec.eq_of_toNat_eq h)
    rw [exec_correct hlow hfill x hn, hm, correctLane_of_nil hempty]
  · have hone := exec_correct_one hlow hfill hstack
    have hlate : ∀ id, popComposed id (setStack x rest s) = lateCorrection (setStack x rest s) →
        popComposed id (setStack x rest s) = { setStack x rest s with counters :=
          { s.counters with lateCorrections := up s.counters.lateCorrections } } := fun id h => by
      rw [h, lateCorrection_eq, setStack_counters]
    refine ⟨fun n hn => ⟨_, hone, ?_⟩, fun htag => ?_, fun htag => ?_, fun htag => ?_,
      fun htag => ?_, fun htag hspan => ?_⟩
    · have hpred : (n - 1).toNat + 1 = n.toNat := by bv_omega
      rw [exec_correct hlow hfill x (by bv_omega), ← hpred, correctLane_of_cons hstack,
        exec_correct (by simpa using hlow) (by simpa using hfill) x (by bv_omega)]
    · rw [hone]
      simp only [popAction, htag, setQueue, setStack, setLane_setLane, laneOf_setLane_same,
        withoutToken]
    · have hsched : (setStack x rest s).schedule = s.schedule := by simp
      rw [hone]
      simp only [popAction, htag, withoutToken, hsched]
      rfl
    · rw [hone]
      simp only [popAction, htag, lateCorrection_eq, setStack_counters]
      rfl
    · rw [hone]
      simp only [popAction, htag]
      rfl
    · rw [hone, popAction_of_row htag, popComposed_of_not_last (by simpa using hspan),
        lateCorrection_eq, setStack_counters]
      rfl

/-! ### The last span undone (R106 to R109) -/

theorem dropGroupCells_zero (cs : List Cell) : dropGroupCells 0 0 cs = cs := by
  induction cs with
  | nil => rfl
  | cons c rest ih =>
    rw [dropGroupCells]
    split
    · rfl
    · rw [ih]

/-- The group cells to skip stay where they are, with all that stands among them. -/
theorem dropGroupCells_append (front cs : List Cell) (drop : Nat) :
    dropGroupCells (front.filter isGroupCell).length drop (front ++ cs) =
      front ++ dropGroupCells 0 drop cs := by
  induction front with
  | nil => rfl
  | cons c rest ih =>
    by_cases hc : isGroupCell c = true
    · simp only [List.filter_cons_of_pos hc, List.length_cons, List.cons_append, dropGroupCells,
        if_pos hc, ih]
    · simp only [List.filter_cons_of_neg hc, List.cons_append, dropGroupCells, if_neg hc, ih]

theorem dropGroupCells_run {own : List Cell} (h : ∀ c ∈ own, isGroupCell c = true)
    (back : List Cell) : dropGroupCells 0 own.length (own ++ back) = back := by
  induction own with
  | nil => exact dropGroupCells_zero back
  | cons c rest ih =>
    simp only [List.length_cons, List.cons_append, dropGroupCells, if_pos (h c (by simp))]
    exact ih fun d hd => h d (by simp [hd])

theorem untakenAhead_append {id : TokenId} {ahead : List GroupRecord} {g : GroupRecord}
    (hahead : ∀ h ∈ ahead, h.id ≠ id) (hg : g.id = id) (behind : List GroupRecord) :
    untakenAhead id (ahead ++ g :: behind) = (ahead.map untaken).sum := by
  induction ahead with
  | nil => exact if_pos hg
  | cons a rest ih =>
    rw [List.cons_append, untakenAhead, if_neg (hahead a (by simp)),
      ih fun h hh => hahead h (by simp [hh])]
    rfl

theorem groupOf_append {id : TokenId} {ahead : List GroupRecord} {g : GroupRecord}
    (hahead : ∀ h ∈ ahead, h.id ≠ id) (hg : g.id = id) (behind : List GroupRecord) :
    groupOf id (ahead ++ g :: behind) = some g := by
  have hnone : ahead.find? (fun h => decide (h.id = id)) = none :=
    List.find?_eq_none.mpr fun h hh => by simpa using hahead h hh
  rw [groupOf, List.find?_append, hnone, Option.none_or, List.find?_cons_of_pos (by simpa using hg)]

theorem groupOf_eq_none {id : TokenId} {gs : List GroupRecord} (h : ∀ g ∈ gs, g.id ≠ id) :
    groupOf id gs = none :=
  List.find?_eq_none.mpr fun g hg => by simpa using h g hg

/-- A token's run leaves the queue and its record the table (R107, step 1). -/
theorem removeGroup_eq {c : Composer} {id : TokenId} {ahead behind : List GroupRecord}
    {g : GroupRecord} {front own back : List Cell} (hgroups : c.groups = ahead ++ g :: behind)
    (hg : g.id = id) (hothers : ∀ h ∈ ahead ++ behind, h.id ≠ id)
    (hcells : c.cells = front ++ own ++ back)
    (hfront : (front.filter isGroupCell).length = (ahead.map untaken).sum)
    (hown : ∀ x ∈ own, isGroupCell x = true) (hlen : own.length = untaken g) :
    removeGroup id c = { c with cells := front ++ back, groups := ahead ++ behind } := by
  have hahead : ∀ h ∈ ahead, h.id ≠ id := fun h hh => hothers h (by simp [hh])
  have hkept : c.groups.filter (fun h => h.id ≠ id) = ahead ++ behind := by
    rw [hgroups, List.filter_append, List.filter_cons_of_neg (by simpa using hg),
      ← List.filter_append]
    exact List.filter_eq_self.mpr fun h hh => by simpa using hothers h hh
  have hcut : dropGroupCells (untakenAhead id c.groups) (untaken g) c.cells = front ++ back := by
    rw [hgroups, untakenAhead_append hahead hg, ← hfront, hcells, List.append_assoc,
      dropGroupCells_append, ← hlen, dropGroupCells_run hown]
  rw [removeGroup, hgroups, groupOf_append hahead hg, ← hgroups]
  simp only [hcut, hkept]

/-- What an undo makes, by the columns of the token already taken and the queue and table without its
group (R107, R108). -/
theorem undoLast_eq {s : State} {left : List Span} {sp : Span} {k : Nat} {cells : List Cell}
    {groups : List GroupRecord} (hspans : s.composer.spans = left ++ [sp])
    (hk : takenColumns sp s.composer = k)
    (hremoved : removeGroup sp.id s.composer =
      { s.composer with cells := cells, groups := groups }) :
    undoLast sp s = { s with
      composer := { s.composer with
        cells := cells ++ (if k = 0 then [] else [.erase k]), groups := groups,
        cursor := s.composer.cursor - sp.columns, spans := left }
      emission := { s.emission with heldCurrent := s.emission.heldCurrent || decide (k ≠ 0) } } := by
  simp only [undoLast, hk, hremoved]
  by_cases hzero : k = 0
  · simp [hzero, hspans]
  · rw [if_neg hzero, appendCells_eq (by simp)]
    simp [hzero, hspans]

/-- Settles O35: the undone token has its group in the queue, or all its cells taken. -/
theorem correctUndoesTheLastSpan : Obligations.CorrectUndoesTheLastSpan := by
  intro s x en rest left sp hlow hfill hstack htag hspans hid popped undone
  have hcomposer : popped.composer = s.composer := by simp [popped]
  have hexec : exec (.correct x 1) s = .next (undoLast sp popped) := by
    rw [exec_correct_one hlow hfill hstack, popAction_of_row htag]
    exact congrArg _ (popComposed_of_last (hcomposer ▸ hspans) hid)
  have hundo {k : Nat} {cells : List Cell} {groups : List GroupRecord}
      (hk : takenColumns sp s.composer = k) (hremoved : removeGroup sp.id s.composer =
        { s.composer with cells := cells, groups := groups }) :
      exec (.correct x 1) s = .next (undone k cells groups) := by
    rw [← hcomposer] at hk hremoved hspans
    rw [hexec, undoLast_eq hspans hk hremoved]
    simp [undone, popped]
  refine ⟨fun hgone => ?_, fun ahead g behind front own back hgroups hg hothers hcells hfront hown
    hlen => ?_⟩
  · have hnone : groupOf sp.id s.composer.groups = none := groupOf_eq_none (hid ▸ hgone)
    exact hundo (by simp only [takenColumns, hnone]) (by simp only [removeGroup, hnone])
  · have hsome : groupOf sp.id s.composer.groups = some g := by
      rw [hgroups, hid]
      exact groupOf_append (fun h hh => hothers h (by simp [hh])) hg behind
    exact hundo (by simp only [takenColumns, hsome])
      (hid ▸ removeGroup_eq hgroups hg hothers hcells hfront hown hlen)

end Sys2Proof.Corrections
end

section
/-! SUPPORT. Emission (07_emission.md): the cells of a block as they leave, and the take, settled. -/

namespace Sys2Proof.Emissions

open Sys2Proof.Machine Sys2Proof.Expect Sys2Proof.ProgrammeTime Sys2Proof.LaneRecords
  Sys2Proof.RowComposition Sys2Proof.Effects Sys2Proof.Accesses Sys2Proof.Schedules

/-! ### Taken cells (R52, R77, R100, R121) -/

theorem cellColumns_eq {c : Cell} (h : isGroupCell c = true) : cellColumns c = columns [c] := by
  rw [← columnsOf_eq (by simpa using h)]
  simp [columnsOf]

theorem measureLateness_eq (speech arrival : Frame) (s : State) :
    measureLateness speech arrival s = measured (some (speech, arrival)) s := by
  simp only [measureLateness, countIf_lateTokens, dueFrame_eq, frameDiff, measured]

/-- The last cell of a group makes its token SHOWN and measures it (R121). -/
theorem completeGroup_eq (g : GroupRecord) (s : State) :
    completeGroup g s = measured g.counts
      (noticed [g.id] (fun t => if t = .sending then .shown else t) s) := by
  rw [completeGroup, notice_eq_noticed, tagLastTaken_eq]
  cases g.counts with
  | none => rfl
  | some counts => exact measureLateness_eq counts.1 counts.2 _

/-- The front group after the take of its first cell: its token is SENDING (R100). -/
def begun (g : GroupRecord) (s : State) : State :=
  if g.taken = 0 then noticed [g.id] (fun t => if t = .composed then .sending else t) s else s

theorem takeGroupCell_eq {g : GroupRecord} {rest : List GroupRecord} {s : State}
    (h : s.composer.groups = g :: rest) (k : Nat) :
    takeGroupCell k s =
      if g.taken + 1 < g.composed then { begun g s with composer :=
        { s.composer with groups := advanceGroup k g :: rest } }
      else completeGroup g { begun g s with composer := { s.composer with groups := rest } } := by
  have hfirst : (if g.taken = 0 then notice g.id tagFirstTaken s else s) = begun g s := by
    rw [begun, notice_eq_noticed, tagFirstTaken_eq]
  have hcomposer : (begun g s).composer = s.composer := by
    rw [begun]
    split <;> rfl
  simp only [takeGroupCell, h, hfirst, hcomposer]
  rfl

theorem takeCells_of_nil {s : State} (h : s.composer.cells = []) (n : Nat) : takeCells n s = s := by
  cases n with
  | zero => rfl
  | succ n => simp only [takeCells, h]

theorem takeCells_succ {s : State} {c : Cell} {rest : List Cell} (h : s.composer.cells = c :: rest)
    (n : Nat) :
    takeCells (n + 1) s = takeCells n
      (let t := { s with composer := { s.composer with cells := rest } }
       if isGroupCell c then takeGroupCell (cellColumns c) t else t) := by
  simp only [takeCells, h]

/-- Settles O40: the queue's front cell by kind, and the front group by the cells it has left. -/
theorem takenCellsAdvanceGroups : Obligations.TakenCellsAdvanceGroups := by
  intro s n
  refine ⟨fun h => takeCells_of_nil h n, rfl, fun c rest hcells => ⟨fun hc => ?_, fun g gs hc hgs => ?_⟩⟩
  · rw [takeCells_succ hcells, hc]
    rfl
  · have hbegun : ∀ cs, begun g { s with composer := { s.composer with cells := cs } } =
        { begun g s with composer := { s.composer with cells := cs } } := fun cs => by
      unfold begun
      split <;> rfl
    intro first grown last
    have htaken := takeGroupCell_eq
      (s := { s with composer := { s.composer with cells := rest } }) hgs (columns [c])
    rw [hbegun] at htaken
    rw [takeCells_succ hcells]
    dsimp only
    rw [if_pos hc, cellColumns_eq hc, htaken]
    refine ⟨fun hmore => ?_, fun hlast => ?_⟩
    · rw [if_pos hmore]
      rfl
    · rw [if_neg (by omega), completeGroup_eq]
      rfl

/-! ### The take (R118 to R121) -/

/-- A state without what a take can change outside the emission state, with the identities that the
stacks name. -/
def besidesTake (s : State) : State × List TokenId × List TokenId :=
  ({ s with
      composer := { s.composer with cells := [], groups := [] }
      laneA := { s.laneA with stack := [] }
      laneB := { s.laneB with stack := [] }
      retiming := { s.retiming with maxLateness := 0 }
      counters := { s.counters with lateTokens := 0 } },
    s.laneA.stack.map (·.id), s.laneB.stack.map (·.id))

theorem retagged_ids (x : Lane) (ids : List TokenId) (f : Tag → Tag) (st : List StackEntry) :
    (retagged x ids f st).map (·.id) = st.map (·.id) := by
  rw [retagged, List.map_map]
  refine List.map_congr_left fun en _ => ?_
  simp only [Function.comp_apply]
  split <;> rfl

theorem besidesTake_noticed (ids : List TokenId) (f : Tag → Tag) (s : State) :
    besidesTake (noticed ids f s) = besidesTake s := by
  simp only [besidesTake, noticed, retagged_ids]

theorem besidesTake_measured (counts : Option (Frame × Frame)) (s : State) :
    besidesTake (measured counts s) = besidesTake s := by
  cases counts <;> rfl

theorem besidesTake_begun (g : GroupRecord) (s : State) : besidesTake (begun g s) = besidesTake s := by
  unfold begun
  split
  · exact besidesTake_noticed _ _ s
  · rfl

theorem besidesTake_takeGroupCell (k : Nat) (s : State) :
    besidesTake (takeGroupCell k s) = besidesTake s := by
  cases hgroups : s.composer.groups with
  | nil => simp only [takeGroupCell, hgroups]
  | cons g rest =>
    have hbegun := besidesTake_begun g s
    have hcomposer : (begun g s).composer = s.composer := by
      rw [begun]
      split <;> rfl
    rw [takeGroupCell_eq hgroups]
    split
    · rw [← hbegun]
      simp only [besidesTake, hcomposer]
    · rw [completeGroup_eq, besidesTake_measured, besidesTake_noticed, ← hbegun]
      simp only [besidesTake, hcomposer]

theorem besidesTake_takeCells (n : Nat) (s : State) : besidesTake (takeCells n s) = besidesTake s := by
  induction n generalizing s with
  | zero => rfl
  | succ n ih =>
    cases hcells : s.composer.cells with
    | nil => rw [takeCells_of_nil hcells]
    | cons c rest =>
      rw [takeCells_succ hcells, ih]
      dsimp only
      split
      · rw [besidesTake_takeGroupCell]
        rfl
      · rfl

/-- Taken cells change nothing but cells, groups, stacks and the lateness figures. -/
theorem takeCells_eq (n : Nat) (s : State) :
    takeCells n s = { s with
      composer := { s.composer with
        cells := s.composer.cells.drop n, groups := (takeCells n s).composer.groups }
      laneA := { s.laneA with stack := (takeCells n s).laneA.stack }
      laneB := { s.laneB with stack := (takeCells n s).laneB.stack }
      retiming := { s.retiming with maxLateness := (takeCells n s).retiming.maxLateness }
      counters := { s.counters with lateTokens := (takeCells n s).counters.lateTokens } } := by
  have hrest := congrArg Prod.fst (besidesTake_takeCells n s)
  have hcells := takeCells_cells n s
  generalize takeCells n s = t at hrest hcells ⊢
  rw [← hcells]
  simp only [besidesTake, State.mk.injEq, Composer.mk.injEq, LaneState.mk.injEq, Retiming.mk.injEq,
    Counters.mk.injEq] at hrest
  rcases t with ⟨_, _, _, _, _, _, _, _, ⟨⟩, ⟨⟩, _, ⟨⟩, _, _, ⟨⟩, _, _, _, _, _, ⟨⟩, _⟩
  simp_all

theorem takeGroupCell_emission (k : Nat) (s : State) (e : Emission) :
    takeGroupCell k { s with emission := e } = { takeGroupCell k s with emission := e } := by
  cases hgroups : s.composer.groups with
  | nil => simp only [takeGroupCell, hgroups]
  | cons g rest =>
    rw [takeGroupCell_eq hgroups, takeGroupCell_eq (s := { s with emission := e }) hgroups]
    have hbegun : begun g { s with emission := e } = { begun g s with emission := e } := by
      unfold begun
      split <;> rfl
    rw [hbegun, completeGroup_eq, completeGroup_eq]
    split
    · rfl
    · cases g.counts <;> rfl

/-- Taking cells does not look at the Emission Unit. -/
theorem takeCells_emission (n : Nat) (s : State) (e : Emission) :
    takeCells n { s with emission := e } = { takeCells n s with emission := e } := by
  induction n generalizing s with
  | zero => rfl
  | succ n ih =>
    cases hcells : s.composer.cells with
    | nil => rw [takeCells_of_nil hcells, takeCells_of_nil (s := { s with emission := e }) hcells]
    | cons c rest =>
      rw [takeCells_succ hcells, takeCells_succ (s := { s with emission := e }) hcells, ← ih]
      congr 1
      dsimp only
      split
      · exact takeGroupCell_emission _ { s with composer := { s.composer with cells := rest } } e
      · rfl

theorem takeBlock_eq (s : State) :
    takeBlock s = { takeCells (min 6 s.composer.cells.length) s with emission := { s.emission with
      take := some s.timebase.e, takenBlock := block s, blockSeq := s.emission.blockSeq + 1 } } := by
  rw [takeBlock]
  simp only [viewCount, offeredView_eq_block, takeCells_emission]

theorem block_length (s : State) : (block s).length = 8 := by
  rw [← offeredView_eq_block, offeredView_length]

theorem block_sum (s : State) : ((block s).map (·.toNat)).sum % 65536 = 0 := by
  rw [← offeredView_eq_block, offeredView]
  exact Words.sum_append_checkWord _

/-- Settles O39: the block's words, the part after the take, and the identities the stacks keep. -/
theorem takeFreezesTheBlock : Obligations.TakeFreezesTheBlock := by
  intro s hlow htake u
  have hids := congrArg Prod.snd (besidesTake_takeCells (min 6 s.composer.cells.length) s)
  refine ⟨⟨block_sum s, block_length s⟩, ?_, congrArg Prod.fst hids, congrArg Prod.snd hids⟩
  have hword : emissionWord 0 (takeBlock s) = blockHeader s := by
    rw [emissionWord_eq, takeBlock_eq]
    simp [block]
  have hdrop : s.composer.cells.drop (min 6 s.composer.cells.length) = s.composer.cells.drop 6 := by
    rcases Nat.le_total 6 s.composer.cells.length with h | h
    · rw [min_eq_left h]
    · rw [min_eq_right h, List.drop_length, List.drop_eq_nil_of_le h]
  rw [exec_take_inserter hlow, emissionRead_of_no_take htake, hword, takeBlock_eq, takeCells_eq, hdrop]
  rfl

end Sys2Proof.Emissions
end

section
/-! SUPPORT. CLEAR (05_row_composition.md, 5.7): the notices of the groups removed and the PLACE cells
kept, settled. -/

namespace Sys2Proof.Directives

open Sys2Proof.Machine Sys2Proof.Expect Sys2Proof.ProgrammeTime Sys2Proof.FloorAndHandoff
  Sys2Proof.Effects Sys2Proof.Safety

/-! ### Removed groups (R102) -/

/-- An entry's tag after the removal of these groups. -/
def removedEntry (gs : List GroupRecord) (en : StackEntry) : StackEntry :=
  { en with tag :=
      match gs.find? fun g => g.id = en.id with
      | none => en.tag
      | some g => removeTag (decide (0 < g.taken)) en.tag }

/-- Removing the front group retags its entry, which names none of the others. -/
theorem removedEntry_cons {g : GroupRecord} {rest : List GroupRecord}
    (h : ∀ k ∈ rest, k.id ≠ g.id) (en : StackEntry) :
    removedEntry (g :: rest) en =
      removedEntry rest (if en.id = g.id then { en with tag := removeTag (decide (0 < g.taken)) en.tag }
        else en) := by
  by_cases hid : en.id = g.id
  · have hnone : rest.find? (fun k => decide (k.id = g.id)) = none :=
      List.find?_eq_none.mpr fun k hk => by simpa using h k hk
    simp [removedEntry, hid, hnone]
  · simp [removedEntry, hid, Ne.symm hid]

theorem laneOf_noticeRemoved {gs : List GroupRecord} (h : (gs.map (·.id)).Nodup) (y : Lane)
    (s : State) :
    laneOf y (noticeRemoved gs s) =
      { laneOf y s with stack := (laneOf y s).stack.map fun en =>
          if en.id.lane = y then removedEntry gs en else en } := by
  induction gs generalizing s with
  | nil => simp [noticeRemoved, removedEntry]
  | cons g rest ih =>
    obtain ⟨hfresh, hrest⟩ := List.nodup_cons.mp h
    have hne : ∀ k ∈ rest, k.id ≠ g.id := fun k hk heq =>
      hfresh (List.mem_map.mpr ⟨k, hk, heq⟩)
    have hstack : (laneOf y (notice g.id (tagGroupRemoved (decide (0 < g.taken))) s)).stack =
        (laneOf y s).stack.map fun en => if en.id.lane = y ∧ en.id = g.id then
          { en with tag := removeTag (decide (0 < g.taken)) en.tag } else en := by
      rw [laneOf_notice, tagGroupRemoved_eq]
      split
      · next hlane =>
        refine List.map_congr_left fun en _ => if_congr ⟨fun hid => ⟨?_, hid⟩, And.right⟩ rfl rfl
        rw [hid, hlane]
      · next hlane =>
        refine ((List.map_congr_left fun en _ => if_neg ?_).trans (List.map_id _)).symm
        rintro ⟨hl, hid⟩
        exact hlane (by rw [← hl, hid])
    rw [noticeRemoved, ih hrest, hstack, List.map_map]
    have hlane : laneOf y (notice g.id (tagGroupRemoved (decide (0 < g.taken))) s) =
        { laneOf y s with
          stack := (laneOf y (notice g.id (tagGroupRemoved (decide (0 < g.taken))) s)).stack } := by
      rw [laneOf_notice]
      split <;> rfl
    rw [hlane]
    dsimp only
    congr 1
    refine List.map_congr_left fun en _ => ?_
    rw [removedEntry_cons hne]
    by_cases hl : en.id.lane = y
    · have hcond : (en.id.lane = y ∧ en.id = g.id) ↔ en.id = g.id := and_iff_right hl
      simp only [Function.comp_apply, hcond, if_pos hl]
      split <;> rfl
    · simp [hl]

/-! ### The PLACE cells kept (R88, step 2) -/

theorem lastPlaceOf_of_not_col {c : Cell} (h : isPlaceCol c = false) (rest : List Cell) :
    lastPlaceOf (c :: rest) = lastPlaceOf rest := by
  rw [lastPlaceOf.eq_def]
  simp only [h, Bool.false_eq_true, if_false]

/-- What the queue's tail keeps is decided at its last PLACE_COL. -/
theorem keptPlace_append {back : List Cell} (hback : ∀ c ∈ back, isPlaceCol c = false)
    (cs : List Cell) : keptPlace (cs ++ back) = keptPlace cs := by
  rw [keptPlace, keptPlace, List.reverse_append]
  have hrev : ∀ c ∈ back.reverse, isPlaceCol c = false := fun c hc =>
    hback c (List.mem_reverse.mp hc)
  generalize back.reverse = front at hrev
  induction front with
  | nil => rfl
  | cons c rest ih =>
    rw [List.cons_append, lastPlaceOf_of_not_col (hrev c (by simp))]
    exact ih fun d hd => hrev d (by simp [hd])

theorem keptPlace_of_none {cs : List Cell} (h : ∀ c ∈ cs, isPlaceCol c = false) :
    keptPlace cs = [] :=
  keptPlace_append h []

theorem keptPlace_pair (front : List Cell) (b d l w : Nat) :
    keptPlace (front ++ [.placeRow b d, .placeCol l w]) = [.placeRow b d, .placeCol l w] := by
  simp [keptPlace, lastPlaceOf, isPlaceCol, isPlaceRow]

/-- A PLACE_COL with no PLACE_ROW directly ahead of it stays alone. -/
theorem keptPlace_alone {front : List Cell} (h : ∀ left b d, front ≠ left ++ [.placeRow b d])
    (l w : Nat) : keptPlace (front ++ [.placeCol l w]) = [.placeCol l w] := by
  rcases List.eq_nil_or_concat front with rfl | ⟨left, c, rfl⟩
  · rfl
  · have hrow : isPlaceRow c = false := by
      cases c with
      | placeRow b d => exact absurd (List.concat_eq_append) (h left b d)
      | _ => rfl
    simp [keptPlace, lastPlaceOf, isPlaceCol, hrow]

theorem isPlaceCol_eq_false {c : Cell} (h : ¬ ∃ l w, c = .placeCol l w) : isPlaceCol c = false := by
  cases c with
  | placeCol l w => exact absurd ⟨l, w, rfl⟩ h
  | _ => rfl

/-! ### CLEAR (R88) -/

/-- A cleared stack: groups removed, then spans closed. -/
theorem retagged_removedEntry (y : Lane) (s : State) (st : List StackEntry) :
    retagged y (s.composer.spans.map (·.id)) closeTag
      (st.map fun en => if en.id.lane = y then removedEntry s.composer.groups en else en) =
      clearedStack y s st := by
  rw [retagged, clearedStack, List.map_map]
  refine List.map_congr_left fun en _ => ?_
  by_cases hl : en.id.lane = y
  · have hclosed : clearedEntry s en = { removedEntry s.composer.groups en with
        tag := if en.id ∈ s.composer.spans.map (·.id)
          then closeTag (removedEntry s.composer.groups en).tag
          else (removedEntry s.composer.groups en).tag } := rfl
    have hid : (removedEntry s.composer.groups en).id = en.id := rfl
    rw [Function.comp_apply, if_pos hl, if_pos hl, hclosed, hid]
    by_cases hspan : en.id ∈ s.composer.spans.map (·.id)
    · simp only [if_pos hspan, if_pos (And.intro hspan hl), hid]
    · simp only [if_neg hspan, if_neg fun h => hspan (And.left h)]
  · simp [hl]

theorem clearWindow_eq {s : State} (h : (groupIdsOf s).Nodup) :
    clearWindow s = { s with
      laneA := { s.laneA with stack := clearedStack .a s s.laneA.stack }
      laneB := { s.laneB with stack := clearedStack .b s s.laneB.stack }
      composer := { s.composer with
        cells := keptPlace (s.composer.cells.filter fun c => !isGroupCell c) ++ [.blank],
        groups := [], cursor := 0, spans := [] }
      emission := { s.emission with heldCurrent := true } } := by
  have hframe := noticeRemoved_frame s.composer.groups s
  have ha := laneOf_noticeRemoved h .a s
  have hb := laneOf_noticeRemoved h .b s
  have hta := retagged_removedEntry .a s s.laneA.stack
  have htb := retagged_removedEntry .b s s.laneB.stack
  rw [clearWindow, appendCells_eq (by simp), closeRow_eq_closed]
  generalize noticeRemoved s.composer.groups s = t at hframe ha hb ⊢
  cases t
  simp_all [closed]

/-- Settles O47: the cells kept in each of the three cases. -/
theorem clearWipesTheWindow : Obligations.ClearWipesTheWindow := by
  intro s tag hlow hids others isCol cleared
  have hexec {kept : List Cell} (hkept : keptPlace others = kept) :
      exec (.clear tag []) s = .next (answered 0x07 tag .done (cleared kept)) := by
    rw [← hkept]
    refine exec_of_countAccepted (d := .clear) tag hlow rfl ?_
    simp only [directiveOwner, clearWindow_eq hids]
    rfl
  refine ⟨fun hnone => ?_, fun front b d l w back hothers hback => ?_,
    fun front l w back hothers hback hfront => ?_⟩
  · exact hexec (keptPlace_of_none fun c hc => isPlaceCol_eq_false (hnone c hc))
  · refine hexec ?_
    rw [hothers, List.append_cons, List.append_cons,
      keptPlace_append fun c hc => isPlaceCol_eq_false (hback c hc), List.append_assoc]
    exact keptPlace_pair front b d l w
  · refine hexec ?_
    rw [hothers, List.append_cons, keptPlace_append fun c hc => isPlaceCol_eq_false (hback c hc)]
    exact keptPlace_alone hfront l w

end Sys2Proof.Directives
end

section
/-! SUPPORT. The frame event as one whole next state: the frame it opens, and what the reactions leave
as it was. -/

namespace Sys2Proof.FrameEvents

open Sys2Proof.Machine Sys2Proof.Expect Sys2Proof.ProgrammeTime Sys2Proof.LaneRecords
  Sys2Proof.FloorAndHandoff Sys2Proof.Effects Sys2Proof.Directives Sys2Proof.Schedules

/-! ### The commands that make one frame event (R2 to R6) -/

/-- The order that a command of the reference asks for; any, for every other command. -/
def orderOf (c : Instr) : FrameOrder :=
  match c with
  | .fpEdge _ o => o
  | .freewheelDeadline o => o
  | .nextPulse o => o
  | _ => { timer := .beforeSlew, cuesFirst := 0, cuesSecond := 0, cuesThird := 0 }

/-- The part at the deadline, FREEWHEEL entered and recorded (R4). -/
def freewheelAt (moment : Nat) (s : State) : State :=
  { s with
    timebase := { s.timebase with
      state := .freewheel, now := moment, deadline := none, lastInternal := some moment,
      nextPulse := some (moment + nominalPeriod (rateOf s.rate)) }
    counters := { s.counters with freewheelEntries := up s.counters.freewheelEntries }
    attention := s.attention ||| 0x10 }

/-- The part at the next pulse (R5). -/
def pulseAt (moment : Nat) (s : State) : State :=
  { s with timebase := { s.timebase with
      now := moment, lastInternal := some moment,
      nextPulse := some (moment + nominalPeriod (rateOf s.rate)) } }

/-- The part at the frame event that a command makes, its moment and state set (R2 to R6). -/
def beforeFrame (c : Instr) (s : State) : State :=
  match c with
  | .fpEdge elapsed _ => lockAt (s.timebase.now + elapsed) s
  | .freewheelDeadline _ => freewheelAt (s.timebase.deadline.getD 0) s
  | .nextPulse _ => pulseAt (s.timebase.nextPulse.getD 0) s
  | _ => s

theorem deadlineReached_eq (o : FrameOrder) (m : Nat) (s : State) :
    deadlineReached o m s = frameEvent o true (freewheelAt m s) := by
  simp [deadlineReached, freewheelAt, raise, causeBit, count, bumpCounter, countUp_eq_up]

theorem pulseReached_eq (o : FrameOrder) (m : Nat) (s : State) :
    pulseReached o m s = frameEvent o true (pulseAt m s) := rfl

/-- A command that makes one frame event is that event, at the state just before it. -/
theorem exec_of_opensOneFrame {c : Instr} {s : State} (h : opensOneFrame c s) :
    exec c s = .next (frameEvent (orderOf c) (decide (s.timebase.state ≠ .absent))
      (beforeFrame c s)) := by
  obtain ⟨hlow, h⟩ := h
  cases c with
  | fpEdge elapsed o =>
    rcases h with hs | ⟨hs, d, hd, hle⟩ | ⟨hs, m, p, hm, hp, hwindow, hle⟩
    · rw [exec_fpEdge_of_absent elapsed o hlow hs,
        edgeAt_of_not_absorbed o (edgeAbsorbed_of_not_freewheel _ (by simp [hs]))]
      rfl
    · rw [exec_fpEdge_of_locked o hlow hs hd hle,
        edgeAt_of_not_absorbed o (edgeAbsorbed_of_not_freewheel _ (by simp [hs]))]
      rfl
    · rw [exec_fpEdge_of_freewheel o hlow hs hp hle, edgeAt_of_not_absorbed o]
      · rfl
      · rw [edgeAbsorbed_freewheel _ hs hm]
        exact decide_eq_false (by omega)
  | freewheelDeadline o =>
    obtain ⟨hs, hd⟩ := h
    obtain ⟨d, hd⟩ := Option.isSome_iff_exists.mp hd
    rw [exec_freewheelDeadline o hlow hs hd, deadlineReached_eq]
    simp [hs, hd, orderOf, beforeFrame]
  | nextPulse o =>
    obtain ⟨hs, hp⟩ := h
    obtain ⟨p, hp⟩ := Option.isSome_iff_exists.mp hp
    rw [exec_nextPulse o hlow hs hp, pulseReached_eq]
    simp [hs, hp, orderOf, beforeFrame]
  | _ => exact h.elim

/-- A state without the reference's clock (but E) and the record of an entry into FREEWHEEL. -/
def besidesClock (s : State) : State :=
  { s with
    timebase := { s.timebase with
      state := .absent, now := 0, deadline := none, nextPulse := none, lastInternal := none }
    counters := { s.counters with freewheelEntries := 0 }
    attention := s.attention &&& 0xEF }

/-! ### The frame that an event opens -/

/-- The frame end's judgement (R125). -/
theorem judgeFrame_eq (ended : Frame) (s : State) :
    judgeFrame ended s = { s with
      counters := { s.counters with
        missedFrames := upIf (decide (s.emission.take ≠ some ended) && s.emission.heldEnded) s.counters.missedFrames }
      emission := { s.emission with
        carry := decide (s.emission.take ≠ some ended) && s.emission.heldEnded } } := by
  have hmissed : (s.emission.take != some ended && s.emission.heldEnded) =
      (decide (s.emission.take ≠ some ended) && s.emission.heldEnded) := by
    simp [bne, Bool.beq_eq_decide_eq]
  rw [judgeFrame, hmissed]
  cases decide (s.emission.take ≠ some ended) && s.emission.heldEnded <;>
    simp [countIf, count, bumpCounter, countUp_eq_up, upIf]

/-- The timecode of the frame opened, with its count and its cause (R8, R11 to R13). -/
theorem openTimecode_eq (s : State) :
    openTimecode s =
      let tc := Expect.timecode (rateOf s.rate) s.timebase
      { s with
        timebase := { s.timebase with
          pendingWord := none, cls := tc.1, n := tc.2.1, known := tc.2.2.1, epoch := tc.2.2.2 }
        counters := { s.counters with
          timecodeMissing := upIf (decide (tc.1 = .missing)) s.counters.timecodeMissing
          timecodeInvalid := upIf (decide (tc.1 = .invalid)) s.counters.timecodeInvalid
          timecodeJump := upIf (decide (tc.1 = .jump)) s.counters.timecodeJump }
        attention := s.attention ||| if tc.1 = .jump then 0x20 else 0 } := by
  cases hword : s.timebase.pendingWord with
  | none =>
    simp [openTimecode, Expect.timecode, hword, extrapolate, count, bumpCounter, countUp_eq_up, upIf]
  | some w =>
    simp only [openTimecode, Expect.timecode, hword]
    cases hvalid : validLabel (rateOf s.rate) (labelOfWord w) with
    | false => simp [extrapolate, count, bumpCounter, countUp_eq_up, upIf]
    | true =>
      simp only [if_true, Bool.true_eq_false, if_false, classify, classOf]
      generalize frameNumber (rateOf s.rate) (labelOfWord w) = new
      cases hknown : s.timebase.known with
      | false => simp [raise, causeBit, count, bumpCounter, countUp_eq_up, upIf]
      | true =>
        by_cases hnext : new = (s.timebase.n + 1) % dayLength (rateOf s.rate)
        · simp [hnext, upIf]
        · by_cases hsame : new = s.timebase.n
          · subst hsame
            simp [hnext, upIf]
          · simp [hnext, hsame, raise, causeBit, count, bumpCounter, countUp_eq_up, upIf]

theorem countTimes_cuesStale (n : Nat) (s : State) :
    countTimes .cuesStale n s =
      { s with counters := { s.counters with cuesStale := upBy n s.counters.cuesStale } } := by
  refine countTimes_eq rfl fun d hd => ?_
  cases d <;> first | rfl | exact absurd rfl hd

/-- The cues that a JUMP retires (R159). -/
theorem retireStale_eq (s : State) :
    retireStale s = { s with
      cues := s.cues.filter fun q => !outlived s.timebase q
      counters := { s.counters with
        cuesStale := upBy (s.cues.filter fun q => outlived s.timebase q).length
          s.counters.cuesStale } } := by
  by_cases hjump : s.timebase.cls = .jump
  · have hleft : (fun q : Cue => decide (q.epoch = s.timebase.epoch)) =
        fun q => !outlived s.timebase q := by
      funext q
      simp [outlived, hjump]
    have hold : (fun q : Cue => decide (q.epoch ≠ s.timebase.epoch)) =
        fun q => outlived s.timebase q := by
      funext q
      simp [outlived, hjump]
    rw [retireStale, if_neg (not_not_intro hjump)]
    simp only [countTimes_cuesStale, hleft, hold]
  · have hnone : ∀ q, outlived s.timebase q = false := fun q => by simp [outlived, hjump]
    rw [retireStale, if_pos hjump]
    simp [hnone, upBy_zero]

theorem stalledAt_eq (e : Frame) (p : Parser) : stalledAt e p = stalls e p := by
  unfold stalledAt stalls
  cases p.staging with
  | none => rfl
  | some st => exact Bool.beq_eq_decide_eq e _

/-- A ring's stall check as the statements say it (R23). -/
theorem stallCheck_eq (r : Ring) (s : State) :
    stallCheck r s = setParser r (afterStall s.timebase.e (parserOf r s)) { s with
      counters := { s.counters with
        stalled := upBy (stalls s.timebase.e (parserOf r s)).toNat s.counters.stalled }
      attention := s.attention ||| if stalls s.timebase.e (parserOf r s) then 0x04 else 0 } := by
  cases hstalls : stalls s.timebase.e (parserOf r s) with
  | true =>
    rw [stallCheck_of_stalled (by rw [stalledAt_eq, hstalls])]
    have hafter : afterStall s.timebase.e (parserOf r s) =
        { expected := (parserOf r s).expected, staging := none } := by
      unfold stalls at hstalls
      unfold afterStall
      split at hstalls
      · cases hstalls
      · next st hst => simp_all
    rw [hafter]
    rfl
  | false =>
    rw [stallCheck_of_not_stalled (by rw [stalledAt_eq, hstalls])]
    have hafter : afterStall s.timebase.e (parserOf r s) = parserOf r s := by
      unfold stalls at hstalls
      unfold afterStall
      split at hstalls
      · simp
      · next st hst => simp_all
    rw [hafter]
    rcases r with (_ | _) | _ <;> simp [setParser, setLane, laneOf, parserOf, upBy_zero]

/-- How many of the three parsers stall, and whether one does. -/
def stalling (e : Frame) (s : State) : List Ring := rings.filter fun r => stalls e (parserOf r s)

/-- The three checks count and raise what stalls among the three. -/
theorem stalling_eq (e : Frame) (s : State) :
    (stalling e s).length = (stalls e s.laneA.parser).toNat + (stalls e s.laneB.parser).toNat +
      (stalls e s.directiveParser).toNat ∧
    (if stalling e s = [] then 0 else 0x04 : BitVec 8) =
      (if stalls e s.laneA.parser then 0x04 else 0) ||| ((if stalls e s.laneB.parser then 0x04 else 0)
        ||| if stalls e s.directiveParser then 0x04 else 0) := by
  have ha : parserOf (.lane .a) s = s.laneA.parser := rfl
  have hb : parserOf (.lane .b) s = s.laneB.parser := rfl
  have hd : parserOf .directive s = s.directiveParser := rfl
  simp only [stalling, rings, List.filter_cons, ha, hb, hd]
  cases stalls e s.laneA.parser <;> cases stalls e s.laneB.parser <;>
    cases stalls e s.directiveParser <;> simp

theorem stallChecks_eq (s : State) :
    stallChecks s =
      let e := s.timebase.e
      { s with
        laneA := { s.laneA with parser := afterStall e s.laneA.parser }
        laneB := { s.laneB with parser := afterStall e s.laneB.parser }
        directiveParser := afterStall e s.directiveParser
        counters := { s.counters with
          stalled := upBy (stalling e s).length s.counters.stalled }
        attention := s.attention ||| if stalling e s = [] then 0 else 0x04 } := by
  simp only [stalling_eq, stallChecks, stallCheck_eq, setParser, setLane, laneOf, parserOf,
    upBy_upBy, BitVec.or_assoc]
  rfl

/-- The frame that an event opens (R7, R8, R11 to R13, R23, R124 to R126, R159). -/
def opened (closes : Bool) (s : State) : State :=
  let tc := Expect.timecode (rateOf s.rate) s.timebase
  let tb := { s.timebase with
    e := s.timebase.e + 1, pendingWord := none, cls := tc.1, n := tc.2.1, known := tc.2.2.1,
    epoch := tc.2.2.2 }
  let missed := decide (s.emission.take ≠ some s.timebase.e) && s.emission.heldCurrent
  { s with
    timebase := tb
    laneA := { s.laneA with parser := afterStall tb.e s.laneA.parser }
    laneB := { s.laneB with parser := afterStall tb.e s.laneB.parser }
    directiveParser := afterStall tb.e s.directiveParser
    emission := { s.emission with
      heldEnded := s.emission.heldCurrent
      heldCurrent := !s.composer.cells.isEmpty
      carry := if closes then missed else s.emission.carry }
    cues := s.cues.filter fun q => !outlived tb q
    counters := { s.counters with
      stalled := upBy (stalling tb.e s).length s.counters.stalled
      missedFrames := upIf (closes && missed) s.counters.missedFrames
      timecodeMissing := upIf (decide (tc.1 = .missing)) s.counters.timecodeMissing
      timecodeInvalid := upIf (decide (tc.1 = .invalid)) s.counters.timecodeInvalid
      timecodeJump := upIf (decide (tc.1 = .jump)) s.counters.timecodeJump
      cuesStale := upBy (s.cues.filter fun q => outlived tb q).length s.counters.cuesStale }
    attention := s.attention ||| (if tc.1 = .jump then 0x20 else 0) |||
      if stalling tb.e s = [] then 0 else 0x04 }

theorem openFrame_eq (closes : Bool) (s : State) : openFrame closes s = opened closes s := by
  cases closes with
  | false =>
    simp only [openFrame, Bool.false_eq_true, if_false, openTimecode_eq, retireStale_eq,
      stallChecks_eq, opened, advanceE]
    rfl
  | true =>
    simp only [openFrame, if_true, judgeFrame_eq, openTimecode_eq, retireStale_eq,
      stallChecks_eq, opened, advanceE, Bool.true_and]
    rfl

end Sys2Proof.FrameEvents
end

section
/-! SUPPORT. What the reactions to a frame event leave as it was: the pass timer, the release pass, the
cues; and the statements about the frame's opening, settled. -/

namespace Sys2Proof.FrameEvents

open Sys2Proof.Machine Sys2Proof.Expect Sys2Proof.ProgrammeTime Sys2Proof.LaneRecords
  Sys2Proof.FloorAndHandoff Sys2Proof.Effects Sys2Proof.Directives Sys2Proof.Schedules

/-! ### Admission, release and the pass timer -/

/-- A state without what admission, release and the pass timer move. -/
def besidesPipeline (s : State) : State :=
  { s with
    laneA := { s.laneA with queue := [], stack := [] }
    laneB := { s.laneB with queue := [], stack := [] }
    retiming := { s.retiming with speechTail := none }
    schedule := []
    floor := { state := .floorA, timer := 0 }
    composer := { s.composer with cells := [], groups := [], cursor := 0, spans := [] }
    emission := { s.emission with heldCurrent := false }
    counters := { s.counters with bunched := 0, truncated := 0, stale := 0, trimmed := 0 } }

theorem besidesPipeline_completePass (x : Lane) (s : State) :
    besidesPipeline (completePass x s) = besidesPipeline s := by
  rw [completePass_eq_passed]
  cases x <;> rfl

theorem besidesPipeline_admitToken (x : Lane) (t : Token) (rest : List Token) (s : State) :
    besidesPipeline (admitToken x t rest s) = besidesPipeline s := by
  have hentered : besidesPipeline (entered x t rest s) = besidesPipeline s := by cases x <;> rfl
  rw [admitToken_eq, sentEndAdmitted]
  split_ifs <;> simp only [besidesPipeline_completePass, hentered]

theorem besidesPipeline_admissionRun (s : State) :
    besidesPipeline (admissionRun s) = besidesPipeline s :=
  admissionRun_induction (P := fun u => besidesPipeline u = besidesPipeline s) rfl
    fun u t rest hu _ _ => (besidesPipeline_admitToken _ t rest u).trans hu

theorem besidesPipeline_released (t : Token) (rest : List Token) (s : State) :
    besidesPipeline (released t rest s) = besidesPipeline s := by
  rw [released]
  generalize composition t s.composer.cursor s.composer.layout.width = g
  obtain ⟨roll, cs⟩ := g
  cases roll <;> rfl

theorem besidesPipeline_judgedHead {s u : State} (h : judgedHead s = some u) :
    besidesPipeline u = besidesPipeline s := by
  unfold judgedHead at h
  split at h
  · cases h
  · split_ifs at h
    · obtain rfl := Option.some.inj h
      exact besidesPipeline_admissionRun _
    · obtain rfl := Option.some.inj h
      exact (besidesPipeline_admissionRun _).trans (besidesPipeline_released _ _ s)

theorem besidesPipeline_releasePass (s : State) :
    besidesPipeline (releasePass s) = besidesPipeline s :=
  releasePass_induction (P := fun u => besidesPipeline u = besidesPipeline s) rfl
    fun _ _ hu hv => (besidesPipeline_judgedHead hv).trans hu

theorem besidesPipeline_handedOver (x : Lane) (s : State) :
    besidesPipeline (handedOver x s) = besidesPipeline s := by
  rw [handedOver, besidesPipeline_admissionRun, ← completePass_eq_passed,
    besidesPipeline_completePass]

theorem besidesPipeline_timed (s : State) : besidesPipeline (timed s) = besidesPipeline s := by
  unfold timed
  split_ifs
  · rfl
  · exact besidesPipeline_handedOver _ s
  · rfl

/-! ### Cues -/

/-- A state without what any reaction but the slew step moves, the effective delay left out too. -/
def besidesReactions (s : State) : State :=
  { besidesPipeline s with
    attention := s.attention &&& 0x7F
    retiming := { s.retiming with speechTail := none, delayTarget := 0, delayEff := 0 }
    cues := []
    service := .run
    image := ImageBuffer.clear
    counters := { s.counters with
      bunched := 0, truncated := 0, stale := 0, trimmed := 0, clamped := 0, cuesFired := 0,
      cueActionsRefused := 0 } }

/-- What is besides the reactions is besides the pipeline. -/
theorem besidesReactions_congr {s t : State} (h : besidesPipeline s = besidesPipeline t) :
    besidesReactions s = besidesReactions t := by
  have hs : besidesReactions s = besidesReactions (besidesPipeline s) := rfl
  rw [hs, h]
  rfl

theorem besidesPipeline_noticeRemoved (gs : List GroupRecord) (s : State) :
    besidesPipeline (noticeRemoved gs s) = besidesPipeline s := by
  induction gs generalizing s with
  | nil => rfl
  | cons g rest ih =>
    rw [noticeRemoved, ih, notice_eq_noticed]
    rfl

/-- CLEAR moves nothing else than admission and release do. -/
theorem besidesPipeline_clearWindow (s : State) :
    besidesPipeline (clearWindow s) = besidesPipeline s := by
  rw [clearWindow, appendCells_eq (by simp), closeRow_eq_closed,
    ← besidesPipeline_noticeRemoved s.composer.groups s]
  rfl

/-- Neither does HANDOFF. -/
theorem besidesPipeline_handoff (lane wait : Word) (s : State) :
    besidesPipeline (handoff lane wait s).1 = besidesPipeline s := by
  have hrun : ∀ (x : Lane) (f : Floor), besidesPipeline (completePassAndAdmit x
      { s with floor := f }) = besidesPipeline s := fun x f =>
    (besidesPipeline_admissionRun _).trans (besidesPipeline_completePass x _)
  have hstart : ∀ x n, besidesPipeline (startPass x n s) = besidesPipeline s := fun x n => by
    unfold startPass
    dsimp only
    split
    · exact hrun x _
    · rfl
  unfold handoff
  dsimp only
  (repeat' split) <;> first | rfl | exact hstart _ _

theorem besidesReactions_actionOwner (a : CueAction) (s : State) :
    besidesReactions (actionOwner a s).1 = besidesReactions s := by
  cases a with
  | hold => rfl
  | clear => exact besidesReactions_congr (besidesPipeline_clearWindow s)
  | handoff lane wait => exact besidesReactions_congr (besidesPipeline_handoff lane wait s)
  | delay d => rfl
  | resume =>
    simp only [actionOwner, resumeService]
    split <;> rfl

theorem refusedCue_bit_masked (a : BitVec 8) : (a ||| 0x80) &&& 0x7F = a &&& 0x7F := by
  revert a; decide

theorem besidesReactions_settleAction (r : Result) (s : State) :
    besidesReactions (settleAction r s) = besidesReactions s := by
  have hrefused : besidesReactions (raise .refusedCueAction (count .cueActionsRefused s)) =
      besidesReactions s := by
    simp only [besidesReactions, raise, causeBit, count, refusedCue_bit_masked]
    rfl
  cases r <;> first | rfl | exact hrefused

theorem besidesReactions_fireCue (q : Cue) (s : State) :
    besidesReactions (fireCue q s) = besidesReactions s := by
  rw [fireCue, besidesReactions_settleAction, besidesReactions_actionOwner]
  rfl

theorem besidesReactions_fireOldest (s : State) :
    besidesReactions (fireOldest s) = besidesReactions s := by
  unfold fireOldest
  split
  · rfl
  · exact besidesReactions_fireCue _ _

theorem besidesReactions_fireUpTo (n : Nat) (s : State) :
    besidesReactions (fireUpTo n s) = besidesReactions s := by
  induction n generalizing s with
  | zero => rfl
  | succ n ih => rw [fireUpTo, ih, besidesReactions_fireOldest]

/-! ### The slew step and the whole of the reactions -/

/-- The slew step looks at nothing that the other reactions move but the delay. -/
theorem besidesReactions_slewStep {s t : State} (h : besidesReactions s = besidesReactions t) :
    besidesReactions (slewStep s) = besidesReactions (slewStep t) := by
  have hs : ∀ u, besidesReactions (slewStep u) =
      { slewStep (besidesReactions u) with retiming := (besidesReactions u).retiming } := fun u => by
    have hwraps : tickerWraps (besidesReactions u) = tickerWraps u := rfl
    unfold slewStep
    rw [hwraps]
    split <;> rfl
  rw [hs s, h, ← hs t]

/-- Whatever the order, the reactions are a slew step and moves besides (R7, log 3). -/
theorem besidesReactions_react (o : FrameOrder) (s : State) :
    besidesReactions (react o s) = besidesReactions (slewStep s) := by
  have htimer : ∀ u, besidesReactions (passTimerStep u) = besidesReactions u := fun u => by
    rw [passTimerStep_eq_timed]
    exact besidesReactions_congr (besidesPipeline_timed u)
  have hrelease : ∀ u, besidesReactions (releasePass u) = besidesReactions u := fun u =>
    besidesReactions_congr (besidesPipeline_releasePass u)
  simp only [react, reactionsOf, fireAll, fireSome]
  cases o.timer <;>
    simp only [besidesReactions_fireUpTo, htimer, hrelease] <;>
    exact besidesReactions_slewStep (by simp only [besidesReactions_fireUpTo, htimer])

/-- The part after the slew step (R15, R44). -/
def slewed (s : State) : State :=
  { s with
    timebase := { s.timebase with ticker := if tickerWraps s then 0 else s.timebase.ticker + 1 }
    retiming := { s.retiming with
      delayEff := if tickerWraps s then toward s.retiming.delayTarget s.retiming.delayEff
        else s.retiming.delayEff }
    laneA := { s.laneA with
      lagEff := if tickerWraps s then toward s.laneA.lagTarget s.laneA.lagEff else s.laneA.lagEff }
    laneB := { s.laneB with
      lagEff := if tickerWraps s then toward s.laneB.lagTarget s.laneB.lagEff else s.laneB.lagEff } }

theorem slewStep_eq (s : State) : slewStep s = slewed s := by
  unfold slewStep slewed
  split <;> rfl

/-! ### What a frame event shows of its opening -/

theorem freewheel_bit_masked_twice (a : BitVec 8) :
    ((a ||| 0x10) &&& 0x7F) &&& 0xEF = (a &&& 0x7F) &&& 0xEF := by
  revert a; decide

/-- The frame opened does not look at the moment, nor at what an entry into FREEWHEEL records. -/
theorem besides_opened_beforeFrame (c : Instr) (closes : Bool) (s : State) :
    besidesClock (besidesReactions (slewed (opened closes (beforeFrame c s)))) =
      besidesClock (besidesReactions (slewed (opened closes s))) := by
  have hmask : ∀ x y : BitVec 8, ((s.attention ||| 0x10 ||| x ||| y) &&& 0x7F) &&& 0xEF =
      ((s.attention ||| x ||| y) &&& 0x7F) &&& 0xEF := fun x y => by
    rw [show s.attention ||| 0x10 ||| x ||| y = (s.attention ||| x ||| y) ||| 0x10 by ac_rfl,
      freewheel_bit_masked_twice]
  cases c with
  | freewheelDeadline o =>
    simp only [besidesClock, besidesReactions, slewed, opened, beforeFrame, freewheelAt, hmask]
    rfl
  | _ => rfl

/-- A frame event is its opening, the slew step, and moves of the other reactions besides. -/
theorem exec_opens {c : Instr} {s : State} (h : opensOneFrame c s) :
    ∃ t, exec c s = .next t ∧ besidesClock (besidesReactions t) =
      besidesClock (besidesReactions (slewed (opened (decide (s.timebase.state ≠ .absent)) s))) := by
  refine ⟨_, exec_of_opensOneFrame h, ?_⟩
  rw [frameEvent, besidesReactions_react, openFrame_eq, slewStep_eq, besides_opened_beforeFrame]

/-- The bits of stalls and of JUMPs show what the opening raises (R181). -/
theorem attention_of_opens {s t : State} {closes : Bool} (h : besidesClock (besidesReactions t) =
      besidesClock (besidesReactions (slewed (opened closes s)))) {i : Nat} (hi : i = 2 ∨ i = 5) :
    t.attention.getLsbD i = (opened closes s).attention.getLsbD i := by
  have hmasked : ((t.attention &&& 0x7F) &&& 0xEF).getLsbD i =
      (((opened closes s).attention &&& 0x7F) &&& 0xEF).getLsbD i :=
    congrArg (fun u => u.attention.getLsbD i) h
  rcases hi with rfl | rfl <;> simpa using hmasked

theorem opened_attention (closes : Bool) (s : State) :
    (opened closes s).attention =
      s.attention ||| (if (Expect.timecode (rateOf s.rate) s.timebase).1 = .jump then 0x20 else 0) |||
        if stalling (s.timebase.e + 1) s = [] then 0 else 0x04 := rfl

/-- Settles O18: the opening classifies, and no other reaction touches what it sets. -/
theorem frameEventClassifiesTimecode : Obligations.FrameEventClassifiesTimecode := by
  intro c s h
  obtain ⟨t, ht, hkept⟩ := exec_opens h
  have hcls : t.timebase.cls = (Expect.timecode (rateOf s.rate) s.timebase).1 :=
    congrArg (·.timebase.cls) hkept
  refine ⟨t, ht, congrArg (·.timebase.e) hkept, congrArg (·.timebase.pendingWord) hkept,
    congrArg (fun u => (u.timebase.cls, u.timebase.n, u.timebase.known, u.timebase.epoch)) hkept,
    ?_, ?_, ?_, ?_⟩ <;> rw [hcls]
  · exact congrArg (·.counters.timecodeMissing) hkept
  · exact congrArg (·.counters.timecodeInvalid) hkept
  · exact congrArg (·.counters.timecodeJump) hkept
  · rw [attention_of_opens hkept (.inr rfl), opened_attention]
    split_ifs with hjump <;> simp [hjump]

/-- Settles O20: the three stall checks, each of its own ring. -/
theorem frameEventStallsRecords : Obligations.FrameEventStallsRecords := by
  intro c s h e
  obtain ⟨t, ht, hkept⟩ := exec_opens h
  refine ⟨t, ht, fun r => ?_, congrArg (·.counters.stalled) hkept, ?_⟩
  · rcases r with (_ | _) | _
    · exact congrArg (·.laneA.parser) hkept
    · exact congrArg (·.laneB.parser) hkept
    · exact congrArg (·.directiveParser) hkept
  · have hany : (rings.any fun r => stalls e (parserOf r s)) = !decide (stalling e s = []) := by
      rw [Bool.eq_iff_iff]
      simp [stalling]
    rw [attention_of_opens hkept (.inl rfl), opened_attention, hany]
    have hmask : ∀ l : List Ring, ((if l = [] then 0 else 0x04 : BitVec 8)).getLsbD 2 =
        !decide (l = []) := fun l => by split_ifs with hl <;> simp [hl]
    rw [BitVec.getLsbD_or, BitVec.getLsbD_or, hmask]
    split_ifs <;> simp [e]

/-! ### The held-cells mark (R124) -/

/-- From `s` to `t` the queue and the mark stay, or cells have come and set it. -/
def marks (s t : State) : Prop :=
  (t.composer.cells = s.composer.cells ∧ t.emission.heldCurrent = s.emission.heldCurrent) ∨
    (t.composer.cells ≠ [] ∧ t.emission.heldCurrent = true)

theorem marks_of_kept {s t : State} (hcomposer : t.composer = s.composer)
    (hemission : t.emission = s.emission) : marks s t :=
  .inl ⟨by rw [hcomposer], by rw [hemission]⟩

theorem marks_trans {s t u : State} (hst : marks s t) (htu : marks t u) : marks s u := by
  rcases htu with ⟨hcells, hheld⟩ | hset
  · rw [marks, hcells, hheld]
    exact hst
  · exact .inr hset

theorem marks_released (t : Token) (rest : List Token) (s : State) : marks s (released t rest s) := by
  rw [released]
  generalize composition t s.composer.cursor s.composer.layout.width = g
  obtain ⟨roll, cs⟩ := g
  cases roll <;> by_cases hcs : cs = [] <;> simp [marks, noticed, hcs]

theorem marks_releasePass (s : State) : marks s (releasePass s) := by
  refine releasePass_induction (P := marks s) (.inl ⟨rfl, rfl⟩) fun u v hu hv => marks_trans hu ?_
  unfold judgedHead at hv
  split at hv
  · cases hv
  · next t rest _ =>
    split_ifs at hv
    · obtain rfl := Option.some.inj hv
      exact marks_of_kept (by simp [discarded, noticed]) (by simp [discarded, noticed])
    · obtain rfl := Option.some.inj hv
      exact marks_trans (marks_released t rest u) (marks_of_kept (by simp) (by simp))

theorem marks_actionOwner (a : CueAction) (s : State) : marks s (actionOwner a s).1 := by
  cases a with
  | clear =>
    refine .inr ?_
    rw [actionOwner, clearWindow, appendCells_eq (by simp)]
    simp
  | hold | delay => exact .inl ⟨rfl, rfl⟩
  | handoff lane wait =>
    exact marks_of_kept (by simp [actionOwner]) (by simp [actionOwner])
  | resume => exact marks_of_kept (by simp [actionOwner]) (by simp [actionOwner])

theorem marks_fireUpTo (n : Nat) (s : State) : marks s (fireUpTo n s) := by
  induction n generalizing s with
  | zero => exact .inl ⟨rfl, rfl⟩
  | succ n ih =>
    refine marks_trans ?_ (ih (fireOldest s))
    unfold fireOldest
    split
    · exact .inl ⟨rfl, rfl⟩
    · next q _ =>
      exact marks_trans (marks_trans (marks_of_kept (by simp) (by simp)) (marks_actionOwner q.action
        (count .cuesFired { s with cues := s.cues.eraseP (cueDue s.timebase) })))
        (marks_of_kept (by simp [fireCue]) (by simp [fireCue]))

theorem marks_react (o : FrameOrder) (s : State) : marks s (react o s) := by
  have htimer : ∀ u, marks u (passTimerStep u) := fun u => marks_of_kept (by simp) (by simp)
  have hslew : ∀ u, marks u (slewStep u) := fun u => marks_of_kept (by simp) (by simp)
  simp only [react, reactionsOf, fireAll, fireSome]
  cases o.timer with
  | beforeSlew =>
    exact marks_trans (marks_trans (marks_trans (marks_trans (marks_trans (marks_trans
      (marks_fireUpTo _ _) (htimer _)) (marks_fireUpTo _ _)) (hslew _)) (marks_fireUpTo _ _))
      (marks_releasePass _)) (marks_fireUpTo _ _)
  | beforeRelease =>
    exact marks_trans (marks_trans (marks_trans (marks_trans (marks_trans (marks_trans
      (marks_fireUpTo _ _) (hslew _)) (marks_fireUpTo _ _)) (htimer _)) (marks_fireUpTo _ _))
      (marks_releasePass _)) (marks_fireUpTo _ _)
  | afterRelease =>
    exact marks_trans (marks_trans (marks_trans (marks_trans (marks_trans (marks_trans
      (marks_fireUpTo _ _) (hslew _)) (marks_fireUpTo _ _)) (marks_releasePass _))
      (marks_fireUpTo _ _)) (htimer _)) (marks_fireUpTo _ _)

/-- The mark of the new frame tells whether the queue held a cell at the event or holds one now. -/
theorem heldCurrent_frameEvent (o : FrameOrder) (closes : Bool) (s : State) :
    (frameEvent o closes s).emission.heldCurrent =
      decide (s.composer.cells ≠ [] ∨ (frameEvent o closes s).composer.cells ≠ []) := by
  have hmarks := marks_react o (opened closes s)
  have hopened : (opened closes s).emission.heldCurrent = !s.composer.cells.isEmpty := rfl
  have hcells : (opened closes s).composer.cells = s.composer.cells := rfl
  rw [frameEvent, openFrame_eq]
  rcases hmarks with ⟨hsame, hheld⟩ | ⟨hset, hheld⟩
  · rw [hheld, hsame, hopened, hcells]
    cases s.composer.cells <;> simp
  · rw [hheld]
    simp [hset]

/-- Settles O21: the judgement is the opening's; the mark follows the queue through the reactions. -/
theorem frameEventClosesFrame : Obligations.FrameEventClosesFrame := by
  intro c s h missed
  obtain ⟨t, ht, hkept⟩ := exec_opens h
  have hmissed : (decide (s.emission.take ≠ some s.timebase.e) && s.emission.heldCurrent) =
      decide missed := by
    rw [Bool.eq_iff_iff]
    simp [missed]
  refine ⟨t, ht, ?_, ?_, congrArg (·.emission.take) hkept, congrArg (·.emission.takenBlock) hkept,
    congrArg (·.emission.blockSeq) hkept, ?_⟩
  · refine (congrArg (·.emission.carry) hkept).trans ?_
    simp only [besidesClock, besidesReactions, besidesPipeline, slewed, opened, hmissed,
      decide_eq_true_eq, ite_not]
  · refine (congrArg (·.counters.missedFrames) hkept).trans ?_
    simp only [besidesClock, besidesReactions, besidesPipeline, slewed, opened, hmissed,
      Bool.decide_and]
  · have hcells : (beforeFrame c s).composer.cells = s.composer.cells := by cases c <;> rfl
    obtain rfl := Host.Outcome.next.inj (ht.symm.trans (exec_of_opensOneFrame h))
    rw [heldCurrent_frameEvent, hcells]

end Sys2Proof.FrameEvents
end

section
/-! SUPPORT. Admission, release and the pass timer run alike in states that agree on what they look at;
so the statements about the pass timer and the release pass of a frame event, settled. -/

namespace Sys2Proof.FrameEvents

open Sys2Proof.Machine Sys2Proof.Expect Sys2Proof.ProgrammeTime Sys2Proof.LaneRecords
  Sys2Proof.FloorAndHandoff Sys2Proof.Effects Sys2Proof.Directives Sys2Proof.Schedules

/-! ### States that run alike -/

section Alike

/-- Related states make the same admissions, and stay related by each part of one. -/
structure AdmitAlike (R : State → State → Prop) : Prop where
  queue : ∀ {s t}, R s t → ∀ x, (laneOf x t).queue = (laneOf x s).queue
  schedule : ∀ {s t}, R s t → t.schedule = s.schedule
  floor : ∀ {s t}, R s t → t.floor = s.floor
  entered : ∀ {s t}, R s t → ∀ x k rest, R (entered x k rest s) (entered x k rest t)
  passed : ∀ {s t}, R s t → ∀ x, R (passed x s) (passed x t)
  lowered : ∀ {s t}, R s t → ∀ f, R { s with floor := f } { t with floor := f }

/-- Related states release the same tokens too. -/
structure RunAlike (R : State → State → Prop) : Prop extends AdmitAlike R where
  service : ∀ {s t}, R s t → t.service = s.service
  stale : ∀ {s t}, R s t → ∀ k, staleNow k t = staleNow k s
  ripe : ∀ {s t}, R s t → ∀ k, ripe k t = ripe k s
  fits : ∀ {s t}, R s t → ∀ k, groupFits k t = groupFits k s
  discarded : ∀ {s t}, R s t → ∀ k rest, R (discarded k rest s) (discarded k rest t)
  released : ∀ {s t}, R s t → ∀ k rest, R (released k rest s) (released k rest t)

variable {R : State → State → Prop}

theorem AdmitAlike.admitToken (h : AdmitAlike R) {s t : State} (hst : R s t) (x : Lane) (k : Token)
    (rest : List Token) : R (admitToken x k rest s) (admitToken x k rest t) := by
  have hentered := h.entered hst x k rest
  rw [admitToken_eq, admitToken_eq, sentEndAdmitted, sentEndAdmitted, h.floor hentered,
    completePass_eq_passed, completePass_eq_passed]
  split_ifs
  · exact h.passed hentered _
  · exact hentered
  · exact hentered

theorem AdmitAlike.admissionRun (h : AdmitAlike R) {s t : State} (hst : R s t) :
    R (admissionRun s) (admissionRun t) := by
  generalize hn : queuedTokens s = n
  induction n using Nat.strong_induction_on generalizing s t with
  | _ n ih =>
    have hqueue := h.queue hst (floorLane t.floor.state)
    rw [h.floor hst] at hqueue
    by_cases hstop : admissionStops s
    · have hstop' : admissionStops t := by
        rwa [admissionStops, h.floor hst, hqueue, h.schedule hst]
      rwa [admissionRun_of_stops hstop, admissionRun_of_stops hstop']
    · obtain ⟨k, rest, hhead, hroom⟩ := not_admissionStops hstop
      have hlt := queuedTokens_admitToken_lt hhead
      rw [admissionRun_step hhead hroom, admissionRun_step (s := t) (t := k) (rest := rest)
        (by rw [h.floor hst, hqueue, hhead]) (by rwa [h.schedule hst]), h.floor hst]
      exact ih _ (hn ▸ hlt) (h.admitToken hst _ k rest) rfl

theorem AdmitAlike.handedOver (h : AdmitAlike R) {s t : State} (hst : R s t) (x : Lane) :
    R (handedOver x s) (handedOver x t) := h.admissionRun (h.passed hst x)

theorem AdmitAlike.timed (h : AdmitAlike R) {s t : State} (hst : R s t) : R (timed s) (timed t) := by
  unfold Expect.timed
  rw [h.floor hst]
  split_ifs
  · exact hst
  · exact h.handedOver hst _
  · exact h.lowered hst _

theorem RunAlike.judgedHead (h : RunAlike R) {s t : State} (hst : R s t) :
    (judgedHead s = none ∧ judgedHead t = none) ∨
      ∃ u v, judgedHead s = some u ∧ judgedHead t = some v ∧ R u v := by
  unfold Schedules.judgedHead
  rw [h.schedule hst]
  cases s.schedule with
  | nil => exact .inl ⟨rfl, rfl⟩
  | cons k rest =>
    simp only [h.stale hst, h.ripe hst, h.fits hst]
    split_ifs
    · exact .inr ⟨_, _, rfl, rfl, h.admissionRun (h.discarded hst k rest)⟩
    · exact .inr ⟨_, _, rfl, rfl, h.admissionRun (h.released hst k rest)⟩
    · exact .inl ⟨rfl, rfl⟩

theorem RunAlike.releasePass (h : RunAlike R) {s t : State} (hst : R s t) :
    R (releasePass s) (releasePass t) := by
  cases hservice : s.service with
  | held =>
    rwa [releasePass_of_held hservice, releasePass_of_held ((h.service hst).trans hservice)]
  | run =>
    generalize hn : judgeable s = n
    induction n using Nat.strong_induction_on generalizing s t with
    | _ n ih =>
      rcases h.judgedHead hst with ⟨hs, ht⟩ | ⟨u, v, hs, ht, huv⟩
      · rwa [releasePass_of_none hs, releasePass_of_none ht]
      · have hlt := judgeable_lt_of_judgedHead hs
        rw [releasePass_of_some hservice hs,
          releasePass_of_some ((h.service hst).trans hservice) ht]
        exact ih _ (hn ▸ hlt) huv ((judgedHead_service hs).trans hservice) rfl

/-- The release pass before or after the pass timer's step. -/
def aroundRelease (p : TimerPlace) (f : State → State) (s : State) : State :=
  if p = .afterRelease then f (releasePass s) else releasePass (f s)

theorem RunAlike.aroundRelease (h : RunAlike R) (p : TimerPlace) {s t : State} (hst : R s t) :
    R (aroundRelease p Expect.timed s) (aroundRelease p Expect.timed t) := by
  unfold FrameEvents.aroundRelease
  split
  · exact h.timed (h.releasePass hst)
  · exact h.releasePass (h.timed hst)

end Alike

theorem releasesFirst_iff {c : Instr} :
    releasesFirst c = true ↔ (orderOf c).timer = .afterRelease := by
  cases c <;> simp [releasesFirst, orderOf]

theorem releasedAround_eq (c : Instr) (f : State → State) (s : State) :
    releasedAround c f s = aroundRelease (orderOf c).timer f s :=
  if_congr releasesFirst_iff rfl rfl

/-! ### A frame event with no cue armed -/

/-- The pass timer does not look at the slew step's values. -/
theorem admitAlike_slewed : AdmitAlike fun s t => t = slewed s where
  queue := by rintro s _ rfl x; cases x <;> rfl
  schedule := by rintro s _ rfl; rfl
  floor := by rintro s _ rfl; rfl
  entered := by rintro s _ rfl x k rest; cases x <;> rfl
  passed := by rintro s _ rfl x; cases x <;> rfl
  lowered := by rintro s _ rfl f; rfl

theorem fireUpTo_of_no_cues {s : State} (h : s.cues = []) (n : Nat) : fireUpTo n s = s := by
  have hone : fireOldest s = s := by simp only [fireOldest, h, List.find?_nil]
  induction n with
  | zero => rfl
  | succ n ih => rw [fireUpTo, hone, ih]

theorem slewed_timed (s : State) : slewed (timed s) = timed (slewed s) :=
  (admitAlike_slewed.timed rfl).symm

/-- Where no cue fires before the other reactions, they are the slew step and then the pass timer's step
around the release pass, and every due cue fires behind them. -/
theorem react_of_last {o : FrameOrder} (h : o.cuesFirst = 0 ∧ o.cuesSecond = 0 ∧ o.cuesThird = 0)
    (s : State) : react o s = fireAll (aroundRelease o.timer timed (slewed s)) := by
  have hnone : ∀ u, fireSome 0 u = u := fun u => by rw [fireSome, Nat.zero_min]; rfl
  simp only [react, reactionsOf, h, hnone]
  cases o.timer <;>
    simp only [aroundRelease, passTimerStep_eq_timed, slewStep_eq, slewed_timed, reduceCtorEq,
      if_true, if_false]

theorem react_of_no_cues {s : State} (h : s.cues = []) (o : FrameOrder) :
    react o s = aroundRelease o.timer timed (slewed s) := by
  have htimed : ∀ u, (timed u).cues = u.cues := fun u =>
    congrArg (·.cues) (besidesPipeline_timed u)
  have hrelease : ∀ u, (releasePass u).cues = u.cues := fun u =>
    congrArg (·.cues) (besidesPipeline_releasePass u)
  have hslewed : ∀ u, (slewed u).cues = u.cues := fun u => rfl
  have hnone : ∀ (n : Nat) (u : State), u.cues = s.cues → fireUpTo n u = u := fun n u hu =>
    fireUpTo_of_no_cues (hu.trans h) n
  simp only [react, reactionsOf, fireAll, fireSome]
  cases o.timer <;>
    simp only [aroundRelease, passTimerStep_eq_timed, slewStep_eq, hnone, htimed, hrelease, hslewed,
      slewed_timed, reduceCtorEq, if_true, if_false]

theorem frameEvent_of_no_cues {s : State} (h : s.cues = []) (o : FrameOrder) (closes : Bool) :
    frameEvent o closes s = aroundRelease o.timer timed (slewed (opened closes s)) := by
  rw [frameEvent, openFrame_eq, react_of_no_cues (by simp [opened, h])]

/-- The part at the slew step of a frame event. -/
def frameSlewed (c : Instr) (s : State) : State :=
  slewed (opened (decide (s.timebase.state ≠ .absent)) (beforeFrame c s))

/-- With no cue armed a frame event is its opening, the slew step, and the pass timer's step around the
release pass. -/
theorem exec_of_no_cues {c : Instr} {s : State} (h : opensOneFrame c s) (hcues : s.cues = []) :
    exec c s = .next (aroundRelease (orderOf c).timer timed (frameSlewed c s)) := by
  have hbefore : (beforeFrame c s).cues = [] := by
    rw [← hcues]
    cases c <;> rfl
  rw [exec_of_opensOneFrame h, frameEvent_of_no_cues hbefore]
  rfl

theorem besidesPipeline_aroundRelease (p : TimerPlace) (s : State) :
    besidesPipeline (aroundRelease p timed s) = besidesPipeline s := by
  unfold aroundRelease
  split
  · rw [besidesPipeline_timed, besidesPipeline_releasePass]
  · rw [besidesPipeline_releasePass, besidesPipeline_timed]

/-- Settles O19, the effective delay among its parts where no cue is armed. -/
theorem frameEventTicks : Obligations.FrameEventTicks := by
  intro c s h wraps
  obtain ⟨t, ht, hkept⟩ := exec_opens h
  have hwraps : ∀ {α : Type} (x y : α), (if tickerWraps s then x else y) = if wraps then x else y :=
    fun x y => if_congr decide_eq_true_iff rfl rfl
  refine ⟨t, ht, ?_, congrArg (·.laneA.lagTarget) hkept, congrArg (·.laneB.lagTarget) hkept, ?_, ?_,
    fun hcues => ?_⟩
  · rw [← hwraps]
    exact congrArg (·.timebase.ticker) hkept
  · rw [← hwraps]
    exact congrArg (·.laneA.lagEff) hkept
  · rw [← hwraps]
    exact congrArg (·.laneB.lagEff) hkept
  · obtain rfl := Host.Outcome.next.inj (ht.symm.trans (exec_of_no_cues h hcues))
    have hpipeline := besidesPipeline_aroundRelease (orderOf c).timer (frameSlewed c s)
    have htarget : (frameSlewed c s).retiming.delayTarget = s.retiming.delayTarget := by
      cases c <;> rfl
    refine ⟨(congrArg (·.retiming.delayTarget) hpipeline).trans htarget, ?_⟩
    refine (congrArg (·.retiming.delayEff) hpipeline).trans ?_
    rw [← hwraps]
    cases c <;> rfl

/-! ### What the pipeline makes of a frame event -/

/-- What admission, release and the pass timer look at, and what of their effect the statements say. -/
def pipelineView (s : State) : State :=
  { State.atRelease 0 0 with
    timebase := { Timebase.reset with e := s.timebase.e }
    laneA := { LaneState.reset with queue := s.laneA.queue, stack := s.laneA.stack }
    laneB := { LaneState.reset with queue := s.laneB.queue, stack := s.laneB.stack }
    retiming := { Retiming.reset with
      delayEff := s.retiming.delayEff, lead := s.retiming.lead, horizon := s.retiming.horizon
      speechTail := s.retiming.speechTail }
    schedule := s.schedule
    floor := s.floor
    composer := s.composer
    service := s.service
    counters := { Counters.zero with
      bunched := s.counters.bunched, stale := s.counters.stale, trimmed := s.counters.trimmed } }

/-- An operation that looks at the view alone takes equal views to equal views. -/
theorem pipelineView_congr {f : State → State}
    (hf : ∀ u, pipelineView (f u) = pipelineView (f (pipelineView u))) {s t : State}
    (h : pipelineView t = pipelineView s) : pipelineView (f t) = pipelineView (f s) := by
  rw [hf t, h, ← hf s]

theorem runAlike_pipelineView : RunAlike fun s t => pipelineView t = pipelineView s where
  queue h x := by
    have := congrArg (fun u => (laneOf x u).queue) h
    cases x <;> exact this
  schedule h := congrArg (·.schedule) h
  floor h := congrArg (·.floor) h
  entered h x k rest := pipelineView_congr (f := entered x k rest) (fun u => by cases x <;> rfl) h
  passed h x := pipelineView_congr (f := passed x) (fun u => by cases x <;> rfl) h
  lowered h f := pipelineView_congr (f := fun u => { u with floor := f }) (fun u => rfl) h
  service h := congrArg (·.service) h
  stale h k := show staleNow k (pipelineView _) = staleNow k (pipelineView _) from congrArg _ h
  ripe h k := show ripe k (pipelineView _) = ripe k (pipelineView _) from congrArg _ h
  fits h k := show groupFits k (pipelineView _) = groupFits k (pipelineView _) from congrArg _ h
  discarded h k rest := pipelineView_congr (f := discarded k rest) (fun u => rfl) h
  released h k rest := pipelineView_congr (f := released k rest) (fun u => by
    have hcomposer : (pipelineView u).composer = u.composer := rfl
    rw [released, released, hcomposer]
    generalize composition k u.composer.cursor u.composer.layout.width = g
    obtain ⟨roll, cs⟩ := g
    cases roll <;> rfl) h

theorem pipelineView_frameSlewed (c : Instr) (s : State) :
    pipelineView (frameSlewed c s) =
      pipelineView (atEvent (frameSlewed c s).retiming.delayEff s) := by
  cases c <;> rfl

/-- What admission, a stale head's discarding and a head's release keep, a release pass keeps. -/
theorem releasePass_keeps {P : State → Prop} {s : State} (hs : P s)
    (hadmit : ∀ u k rest, P u → (laneOf (floorLane u.floor.state) u).queue = k :: rest →
      u.schedule.length < 96 → P (admitToken (floorLane u.floor.state) k rest u))
    (hdiscard : ∀ u k rest, P u → u.schedule = k :: rest → P (discarded k rest u))
    (hrelease : ∀ u k rest, P u → u.schedule = k :: rest → groupFits k u = true →
      P (released k rest u)) : P (releasePass s) := by
  refine releasePass_induction hs fun u v hu hv => ?_
  unfold judgedHead at hv
  split at hv
  · cases hv
  · next k rest hsched =>
    split_ifs at hv with _ hfits
    · obtain rfl := Option.some.inj hv
      exact admissionRun_induction (hdiscard u k rest hu hsched) hadmit
    · obtain rfl := Option.some.inj hv
      exact admissionRun_induction
        (hrelease u k rest hu hsched (Bool.and_eq_true_iff.mp hfits).2) hadmit

theorem released_floor (k : Token) (rest : List Token) (s : State) :
    (released k rest s).floor = s.floor := by
  rw [released]
  generalize composition k s.composer.cursor s.composer.layout.width = g
  obtain ⟨roll, cs⟩ := g
  cases roll <;> rfl

theorem laneOf_released_queue (x : Lane) (k : Token) (rest : List Token) (s : State) :
    (laneOf x (released k rest s)).queue = (laneOf x s).queue := by
  rw [released]
  generalize composition k s.composer.cursor s.composer.layout.width = g
  obtain ⟨roll, cs⟩ := g
  cases roll <;> cases x <;> rfl

theorem laneOf_discarded_queue (x : Lane) (k : Token) (rest : List Token) (s : State) :
    (laneOf x (discarded k rest s)).queue = (laneOf x s).queue := by
  cases x <;> rfl

/-! ### The floor through a frame event (R136 to R141) -/

/-- The floor after a pass from lane `x` has completed. -/
def passEnded (x : Lane) : Floor := { state := floorOf (otherLane x), timer := 0 }

/-- The pass from lane `x` has completed and has left no token in the lane's queue. -/
def hasEnded (x : Lane) (u : State) : Prop := u.floor = passEnded x ∧ (laneOf x u).queue = []

/-- The floor is still `f`, or its pass has completed. -/
def keepsOrEnds (f : Floor) (u : State) : Prop :=
  u.floor = f ∨ (passTarget f.state ≠ none ∧ hasEnded (floorLane f.state) u)

theorem passed_floor (x : Lane) (s : State) : (passed x s).floor = passEnded x := by
  cases x <;> rfl

theorem laneOf_passed_queue (x : Lane) (s : State) : (laneOf x (passed x s)).queue = [] := by
  rw [← completePass_eq_passed, laneOf_completePass_queue, if_pos rfl]

theorem entered_floor (x : Lane) (k : Token) (rest : List Token) (s : State) :
    (entered x k rest s).floor = s.floor := by
  cases x <;> rfl

theorem laneOf_entered_queue (x y : Lane) (k : Token) (rest : List Token) (s : State) :
    (laneOf y (entered x k rest s)).queue = if y = x then rest else (laneOf y s).queue := by
  cases x <;> cases y <;> rfl

/-- An admission completes a pass in progress for a SENT_END of the floor lane alone (R137). -/
theorem admitToken_cases (x : Lane) (k : Token) (rest : List Token) (s : State) :
    admitToken x k rest s = entered x k rest s ∨
      (k.sentEnd = true ∧ passTarget s.floor.state ≠ none ∧
        admitToken x k rest s = passed (floorLane s.floor.state) (entered x k rest s)) := by
  rw [admitToken_eq, sentEndAdmitted, entered_floor, completePass_eq_passed]
  split_ifs with hend hpass
  · exact .inr ⟨hend, hpass.1, by rw [hpass.2]⟩
  · exact .inl rfl
  · exact .inl rfl

theorem hasEnded_admitToken {x : Lane} {u : State} (h : hasEnded x u) (k : Token)
    (rest : List Token) : hasEnded x (admitToken (floorLane u.floor.state) k rest u) := by
  obtain ⟨hfloor, hempty⟩ := h
  have hnone : passTarget u.floor.state = none := by simp [hfloor, passEnded]
  have hother : floorLane u.floor.state = otherLane x := by simp [hfloor, passEnded]
  rcases admitToken_cases (floorLane u.floor.state) k rest u with heq | ⟨-, hpass, -⟩
  · refine ⟨by rw [heq, entered_floor, hfloor], ?_⟩
    rw [heq, laneOf_entered_queue, hother, if_neg (otherLane_ne _).symm, hempty]
  · exact absurd hnone hpass

theorem hasEnded_admissionRun {x : Lane} {u : State} (h : hasEnded x u) :
    hasEnded x (admissionRun u) :=
  admissionRun_induction h fun _ k rest hu _ _ => hasEnded_admitToken hu k rest

/-- A completion ends the pass, and its run leaves the new floor. -/
theorem hasEnded_handedOver (x : Lane) (u : State) : hasEnded x (handedOver x u) :=
  hasEnded_admissionRun ⟨passed_floor x u, laneOf_passed_queue x u⟩

theorem timed_of_hasEnded {x : Lane} {u : State} (h : hasEnded x u) : timed u = u := by
  rw [timed, if_pos (by simp [h.1, passEnded])]

theorem keepsOrEnds_admitToken {f : Floor} {u : State} (h : keepsOrEnds f u) (k : Token)
    (rest : List Token) : keepsOrEnds f (admitToken (floorLane u.floor.state) k rest u) := by
  rcases h with hkept | ⟨hpass, hended⟩
  · rw [hkept]
    rcases admitToken_cases (floorLane f.state) k rest u with heq | ⟨-, hpass, heq⟩
    · exact .inl (by rw [heq, entered_floor, hkept])
    · rw [hkept] at hpass heq
      exact .inr ⟨hpass, by rw [heq, passed_floor], by rw [heq, laneOf_passed_queue]⟩
  · exact .inr ⟨hpass, hasEnded_admitToken hended k rest⟩

theorem keepsOrEnds_releasePass {f : Floor} {u : State} (h : keepsOrEnds f u) :
    keepsOrEnds f (releasePass u) := by
  refine releasePass_keeps h (fun u k rest hu _ _ => keepsOrEnds_admitToken hu k rest)
    (fun u k rest hu _ => ?_) (fun u k rest hu _ _ => ?_)
  · rw [keepsOrEnds, hasEnded, laneOf_discarded_queue]
    exact hu
  · rw [keepsOrEnds, hasEnded, released_floor, laneOf_released_queue]
    exact hu

theorem hasEnded_releasePass {x : Lane} {u : State} (h : hasEnded x u) : hasEnded x (releasePass u) := by
  refine releasePass_keeps h (fun u k rest hu _ _ => hasEnded_admitToken hu k rest)
    (fun u k rest hu _ => ?_) (fun u k rest hu _ _ => ?_)
  · rw [hasEnded, laneOf_discarded_queue]
    exact hu
  · rw [hasEnded, released_floor, laneOf_released_queue]
    exact hu

/-- No SENT_END waits in the floor lane's queue, and the floor is `f`. -/
def endless (f : Floor) (u : State) : Prop :=
  u.floor = f ∧ ∀ k ∈ (laneOf (floorLane f.state) u).queue, k.sentEnd = false

/-- Without a SENT_END no release pass completes a pass (R137). -/
theorem endless_releasePass {f : Floor} {u : State} (h : endless f u) : endless f (releasePass u) := by
  refine releasePass_keeps h (fun u k rest hu hqueue _ => ?_) (fun u k rest hu _ => ?_)
    (fun u k rest hu _ _ => ?_)
  · obtain ⟨hfloor, hqueued⟩ := hu
    rw [hfloor] at hqueue ⊢
    rw [hqueue] at hqueued
    rcases admitToken_cases (floorLane f.state) k rest u with heq | ⟨hend, -⟩
    · refine ⟨by rw [heq, entered_floor, hfloor], ?_⟩
      rw [heq, laneOf_entered_queue, if_pos rfl]
      exact fun j hj => hqueued j (by simp [hj])
    · rw [hqueued k (by simp)] at hend
      cases hend
  · rw [endless, laneOf_discarded_queue]
    exact hu
  · rw [endless, released_floor, laneOf_released_queue]
    exact hu

/-- Without a pass in progress the release pass keeps the floor. -/
theorem releasePass_floor_of_none {u : State} (h : passTarget u.floor.state = none) :
    (releasePass u).floor = u.floor := by
  rcases keepsOrEnds_releasePass (f := u.floor) (u := u) (.inl rfl) with hkept | ⟨hpass, -⟩
  · exact hkept
  · exact absurd h hpass

/-- With no pass in progress the pass timer stands aside. -/
theorem aroundRelease_of_none (p : TimerPlace) {u : State} (h : passTarget u.floor.state = none) :
    aroundRelease p timed u = releasePass u := by
  have htimed : timed u = u := if_pos h
  have hafter : timed (releasePass u) = releasePass u :=
    if_pos (by rw [releasePass_floor_of_none h, h])
  rw [aroundRelease, htimed, hafter, ite_self]

/-- In HELD only the pass timer acts (R65). -/
theorem aroundRelease_of_held (p : TimerPlace) {u : State} (h : u.service = .held) :
    aroundRelease p timed u = timed u := by
  have hservice : (timed u).service = .held :=
    (congrArg (·.service) (besidesPipeline_timed u)).trans h
  rw [aroundRelease, releasePass_of_held h, releasePass_of_held hservice, ite_self]

/-! ### The statements about the pass timer and the release pass -/

theorem passed_schedule (x : Lane) (s : State) :
    (passed x s).schedule = s.schedule ∧ (passed x s).composer = s.composer ∧
      (passed x s).counters.stale = s.counters.stale := by
  cases x <;> exact ⟨rfl, rfl, rfl⟩

/-- The pass timer only adds to the schedule and leaves window and stale count. -/
theorem timed_schedule (s : State) :
    s.schedule <+: (timed s).schedule ∧ (timed s).composer = s.composer ∧
      (timed s).counters.stale = s.counters.stale := by
  have hrun : ∀ x, s.schedule <+: (handedOver x s).schedule ∧ (handedOver x s).composer = s.composer ∧
      (handedOver x s).counters.stale = s.counters.stale := fun x => by
    obtain ⟨hsched, hcomposer, hstale⟩ := passed_schedule x s
    refine admissionRun_induction (P := fun u => s.schedule <+: u.schedule ∧
      u.composer = s.composer ∧ u.counters.stale = s.counters.stale)
      ⟨by rw [hsched], hcomposer, hstale⟩ fun u k rest ⟨hprefix, hc, hst⟩ _ _ => ?_
    have hentered : ∀ y, (entered y k rest u).schedule =
        u.schedule ++ [{ k with speech := raised u.retiming.speechTail k.speech }] ∧
        (entered y k rest u).composer = u.composer ∧
        (entered y k rest u).counters.stale = u.counters.stale := fun y => by
      cases y <;> exact ⟨rfl, rfl, rfl⟩
    obtain ⟨h1, h2, h3⟩ := hentered (floorLane u.floor.state)
    rcases admitToken_cases (floorLane u.floor.state) k rest u with heq | ⟨-, -, heq⟩
    · rw [heq, h1, h2, h3]
      exact ⟨hprefix.trans (List.prefix_append _ _), hc, hst⟩
    · obtain ⟨p1, p2, p3⟩ := passed_schedule (floorLane u.floor.state)
        (entered (floorLane u.floor.state) k rest u)
      rw [heq, p1, p2, p3, h1, h2, h3]
      exact ⟨hprefix.trans (List.prefix_append _ _), hc, hst⟩
  unfold timed
  split_ifs
  · exact ⟨List.prefix_rfl, rfl, rfl⟩
  · exact hrun _
  · exact ⟨List.prefix_rfl, rfl, rfl⟩

/-- Settles O38: a frame event with no cue armed runs like the pass timer around the release pass at
the new E. -/
theorem frameEventMakesAReleasePass : Obligations.FrameEventMakesAReleasePass := by
  intro c s h hcues
  refine ⟨_, exec_of_no_cues h hcues, ?_⟩
  have hdelay : (aroundRelease (orderOf c).timer timed (frameSlewed c s)).retiming.delayEff =
      (frameSlewed c s).retiming.delayEff :=
    congrArg (·.retiming.delayEff) (besidesPipeline_aroundRelease _ _)
  rw [hdelay]
  intro w u
  have hu : u = aroundRelease (orderOf c).timer timed w := releasedAround_eq c timed w
  have hview : pipelineView (aroundRelease (orderOf c).timer timed (frameSlewed c s)) =
      pipelineView u := by
    rw [hu]
    exact runAlike_pipelineView.aroundRelease _ (pipelineView_frameSlewed c s)
  have hcomposer := congrArg (·.composer) hview
  have hschedule := congrArg (·.schedule) hview
  have hstale := congrArg (·.counters.stale) hview
  refine ⟨⟨hschedule, congrArg (·.laneA.queue) hview, congrArg (·.laneB.queue) hview,
    congrArg (·.laneA.stack) hview, congrArg (·.laneB.stack) hview, congrArg (·.floor) hview,
    hcomposer, congrArg (·.retiming.speechTail) hview, hstale,
    congrArg (·.counters.trimmed) hview, congrArg (·.counters.bunched) hview⟩,
    fun hpass => hu.trans (aroundRelease_of_none _ hpass), fun hheld => ?_⟩
  have htimed : u = timed w := hu.trans (aroundRelease_of_held _ hheld)
  obtain ⟨hprefix, hc, hst⟩ := timed_schedule w
  rw [← htimed] at hprefix hc hst
  refine ⟨htimed, ?_, hcomposer.trans hc, hstale.trans hst⟩
  have hschedule' : (aroundRelease (orderOf c).timer timed (frameSlewed c s)).schedule =
      u.schedule := hschedule
  rw [hschedule']
  exact hprefix

/-- Neither does a release pass complete the pass: it is HELD, or no SENT_END waits (R65, R137). -/
def noneEnds (u : State) : Prop :=
  u.service = .held ∨ ∀ k ∈ (laneOf (floorLane u.floor.state) u).queue, k.sentEnd = false

theorem releasePass_floor_of_noneEnds {u : State} (h : noneEnds u) :
    (releasePass u).floor = u.floor := by
  rcases h with hheld | hflags
  · rw [releasePass_of_held hheld]
  · exact (endless_releasePass (f := u.floor) ⟨rfl, hflags⟩).1

/-- A pass with more than one frame to wait loses one, unless a release pass ends it (R136, R137). -/
theorem aroundRelease_waits (p : TimerPlace) {u : State} (hpass : passTarget u.floor.state ≠ none)
    (htimer : 1 < u.floor.timer) :
    ((aroundRelease p timed u).floor = { u.floor with timer := u.floor.timer - 1 } ∨
      hasEnded (floorLane u.floor.state) (aroundRelease p timed u)) ∧
    (noneEnds u →
      (aroundRelease p timed u).floor = { u.floor with timer := u.floor.timer - 1 }) := by
  have hlowered : ∀ v : State, v.floor = u.floor →
      timed v = { v with floor := { u.floor with timer := u.floor.timer - 1 } } := fun v hv => by
    rw [timed, hv, if_neg hpass, if_neg (by omega)]
  unfold aroundRelease
  split
  · refine ⟨?_, fun hends => ?_⟩
    · rcases keepsOrEnds_releasePass (f := u.floor) (u := u) (.inl rfl) with hkept | ⟨-, hended⟩
      · exact .inl (by rw [hlowered _ hkept])
      · exact .inr (by rwa [timed_of_hasEnded hended])
    · rw [hlowered _ (releasePass_floor_of_noneEnds hends)]
  · rw [hlowered u rfl]
    refine ⟨?_, fun hends => releasePass_floor_of_noneEnds ?_⟩
    · rcases keepsOrEnds_releasePass (f := { u.floor with timer := u.floor.timer - 1 })
        (u := { u with floor := { u.floor with timer := u.floor.timer - 1 } }) (.inl rfl) with
        hkept | ⟨-, hended⟩
      · exact .inl hkept
      · exact .inr hended
    · rw [noneEnds] at hends ⊢
      generalize floorLane u.floor.state = x at hends ⊢
      cases x <;> exact hends

/-- A pass with its last frame to wait ends, by the timer unless a release pass ends it before. -/
theorem aroundRelease_ends (p : TimerPlace) {u : State} (hpass : passTarget u.floor.state ≠ none)
    (htimer : u.floor.timer ≤ 1) :
    hasEnded (floorLane u.floor.state) (aroundRelease p timed u) ∧
    (p ≠ .afterRelease ∨ (releasePass u).floor = u.floor →
      aroundRelease p timed u = aroundRelease p (handedOver (floorLane u.floor.state)) u) := by
  have htimed : ∀ v : State, v.floor = u.floor → timed v = handedOver (floorLane u.floor.state) v :=
    fun v hv => by rw [timed, hv, if_neg hpass, if_pos htimer]
  unfold aroundRelease
  split
  · next hafter =>
    refine ⟨?_, fun hcond => htimed _ (hcond.resolve_left (not_not_intro hafter))⟩
    rcases keepsOrEnds_releasePass (f := u.floor) (u := u) (.inl rfl) with hkept | ⟨-, hended⟩
    · rw [htimed _ hkept]
      exact hasEnded_handedOver _ _
    · rwa [timed_of_hasEnded hended]
  · rw [htimed u rfl]
    exact ⟨hasEnded_releasePass (hasEnded_handedOver _ _), fun _ => rfl⟩

/-- Settles O23: the floor by the timer's place, and the two queues, stacks and counts as the
completion leaves them. -/
theorem frameEventRunsPassTimer : Obligations.FrameEventRunsPassTimer := by
  intro c s h hcues x ended lowered ends
  refine ⟨_, exec_of_no_cues h hcues, ?_⟩
  have hdelay : (aroundRelease (orderOf c).timer timed (frameSlewed c s)).retiming.delayEff =
      (frameSlewed c s).retiming.delayEff :=
    congrArg (·.retiming.delayEff) (besidesPipeline_aroundRelease _ _)
  rw [hdelay]
  have hview := runAlike_pipelineView.aroundRelease (orderOf c).timer (pipelineView_frameSlewed c s)
  have hends : ends → noneEnds (atEvent (frameSlewed c s).retiming.delayEff s) := fun hends => by
    have hqueue : (laneOf x (atEvent (frameSlewed c s).retiming.delayEff s)).queue =
        (laneOf x s).queue := by cases x <;> rfl
    exact hends.imp_right fun hflags => by rwa [← hqueue] at hflags
  generalize aroundRelease (orderOf c).timer timed (frameSlewed c s) = t at hview ⊢
  generalize (frameSlewed c s).retiming.delayEff = d at hview hends ⊢
  have hfloor : t.floor = (aroundRelease (orderOf c).timer timed (atEvent d s)).floor :=
    congrArg (·.floor) hview
  have hqueue : (laneOf x t).queue =
      (laneOf x (aroundRelease (orderOf c).timer timed (atEvent d s))).queue :=
    runAlike_pipelineView.queue hview x
  refine ⟨fun hpass => ?_, fun hpass => ⟨fun htimer => ?_, fun hended => ?_, fun htimer => ?_⟩⟩
  · rw [hfloor, aroundRelease_of_none (u := atEvent d s) _ hpass]
    exact releasePass_floor_of_none (u := atEvent d s) hpass
  · obtain ⟨hwaits, hlowered⟩ := aroundRelease_waits (orderOf c).timer (u := atEvent d s) hpass htimer
    rw [hfloor]
    exact ⟨hwaits.imp_right And.left, fun h => hlowered (hends h)⟩
  · rw [hqueue]
    rcases Nat.lt_or_ge 1 s.floor.timer with htimer | htimer
    · rcases (aroundRelease_waits (orderOf c).timer (u := atEvent d s) hpass htimer).1 with
        hlowered | hended'
      · have hstate := congrArg (fun f : Floor => passTarget f.state)
          (hlowered.symm.trans (hfloor.symm.trans hended))
        exact absurd (hstate.trans (passTarget_floorOf _)) hpass
      · exact hended'.2
    · exact (aroundRelease_ends (orderOf c).timer (u := atEvent d s) hpass htimer).1.2
  · obtain ⟨hended, hsame⟩ :=
      aroundRelease_ends (orderOf c).timer (u := atEvent d s) hpass htimer
    refine ⟨hfloor.trans hended.1, ?_⟩
    intro w hcond u
    have hu : u = aroundRelease (orderOf c).timer timed w := by
      refine (releasedAround_eq c _ w).trans (hsame ?_).symm
      rcases hcond with h | h | h
      · exact .inr (releasePass_floor_of_noneEnds (hends h))
      · exact .inl fun hafter => by simp [releasesFirst_iff.mpr hafter] at h
      · exact .inr h
    rw [hu]
    exact ⟨congrArg (·.laneA.queue) hview, congrArg (·.laneB.queue) hview,
      congrArg (·.laneA.stack) hview, congrArg (·.laneB.stack) hview, congrArg (·.schedule) hview,
      congrArg (·.counters.trimmed) hview, congrArg (·.counters.bunched) hview⟩

end Sys2Proof.FrameEvents
end

section
/-! SUPPORT. What the commands of the reference leave as it was, settled. -/

namespace Sys2Proof.FrameEvents

open Sys2Proof.Machine Sys2Proof.Expect Sys2Proof.ProgrammeTime Sys2Proof.LaneRecords
  Sys2Proof.FloorAndHandoff Sys2Proof.Effects Sys2Proof.Directives Sys2Proof.Schedules

/-- A lane without what frame events move. -/
def laneRest (l : LaneState) : LaneState :=
  { l with parser := { l.parser with staging := none }, lagEff := 0, queue := [], stack := [] }

/-- A state without what frame events move. -/
def frameRest (s : State) : State :=
  { s with
    attention := 0
    timebase := Timebase.reset
    laneA := laneRest s.laneA
    laneB := laneRest s.laneB
    directiveParser := { s.directiveParser with staging := none }
    retiming := { s.retiming with delayTarget := 0, delayEff := 0, speechTail := none }
    schedule := []
    floor := { state := .floorA, timer := 0 }
    composer := { Composer.reset with layout := s.composer.layout }
    emission := { s.emission with heldCurrent := false, heldEnded := false, carry := false }
    cues := []
    service := .run
    image := ImageBuffer.clear
    counters := Counters.zero }

theorem afterStall_expected (e : Frame) (p : Parser) : (afterStall e p).expected = p.expected := by
  unfold afterStall
  split
  · rfl
  · split <;> rfl

theorem frameRest_frameEvent (o : FrameOrder) (closes : Bool) (s : State) :
    frameRest (frameEvent o closes s) = frameRest s := by
  have hreact : frameRest (frameEvent o closes s) = frameRest (slewStep (opened closes s)) := by
    rw [frameEvent, openFrame_eq]
    show frameRest (besidesReactions _) = frameRest (besidesReactions _)
    rw [besidesReactions_react]
  have hlane : ∀ (e : Frame) (l : LaneState) (lag : Nat),
      laneRest { l with parser := afterStall e l.parser, lagEff := lag } = laneRest l := fun e l lag => by
    simp only [laneRest, afterStall_expected]
  have hparser : (slewed (opened closes s)).directiveParser.expected = s.directiveParser.expected :=
    afterStall_expected _ _
  have ha : laneRest (slewed (opened closes s)).laneA = laneRest s.laneA := hlane _ _ _
  have hb : laneRest (slewed (opened closes s)).laneB = laneRest s.laneB := hlane _ _ _
  rw [hreact, slewStep_eq]
  simp only [frameRest, ha, hb, hparser]
  rfl

/-- What the commands of the reference keep follows from what the frame events and the moments set
keep (R2 to R6). -/
theorem reference_keeps {P : State → Prop} {c : Instr} {s t : State} (h : exec c s = .next t)
    (href : ofReference c = true) (hs : P s)
    (hframe : ∀ u o closes, u.timebase.state ≠ .absent → P u → P (frameEvent o closes u))
    (hlock : ∀ u m, P u → P (lockAt m u)) (hfreewheel : ∀ u m, P u → P (freewheelAt m u))
    (hpulse : ∀ u m, u.timebase.state = .freewheel → P u → P (pulseAt m u)) : P t := by
  have hdeadline : ∀ o m u, P u → P (deadlineReached o m u) := fun o m u hu => by
    rw [deadlineReached_eq]
    exact hframe _ o true (by simp [freewheelAt]) (hfreewheel u m hu)
  have hnext : ∀ o m u, u.timebase.state = .freewheel → P u → P (pulseReached o m u) :=
    fun o m u hstate hu => hframe _ o true (by simp [hstate]) (hpulse u m hstate hu)
  have hreleased : ∀ f : State → State, (∀ u, P u → P (f u)) → P (whileReleased f s) := fun f hf => by
    rcases whileReleased_cases f s with heq | heq <;> rw [heq]
    · exact hs
    · exact hf s hs
  have hrun : ∀ o fuel m v, P v → P (runClock fuel o m v) := by
    intro o fuel m
    induction fuel with
    | zero => exact fun v hv => hv
    | succ fuel ih =>
      intro v hv
      have hevent : ∀ k, P (internalEvent o k v) := fun k => by
        unfold internalEvent
        split
        · exact hv
        · exact hdeadline o k v hv
        · next hstate => exact hnext o k v hstate hv
      unfold runClock
      split
      · exact hv
      · split
        · exact ih _ (hevent _)
        · exact hv
  cases c with
  | fpEdge elapsed o =>
    obtain rfl := eq_of_done h
    refine hreleased _ fun u hu => ?_
    unfold edgeAfter edgeAt
    dsimp only
    split
    · exact hlock _ _ (hrun o _ _ u hu)
    · exact hframe _ _ _ (by simp [lockAt]) (hlock _ _ (hrun o _ _ u hu))
  | freewheelDeadline o =>
    obtain rfl := eq_of_done h
    refine hreleased _ fun u hu => ?_
    unfold reachDeadline
    split
    · exact hdeadline o _ u hu
    · exact hu
  | nextPulse o =>
    obtain rfl := eq_of_done h
    refine hreleased _ fun u hu => ?_
    unfold reachPulse
    split
    · next hstate _ => exact hnext o _ u hstate hu
    · exact hu
  | _ => cases href

/-- What cues alone can move in a frame event. -/
def cueRest (s : State) : List Cue × Service × ImageBuffer × Nat :=
  (s.cues, s.service, s.image, s.retiming.delayTarget)

theorem cueRest_frameEvent {s : State} (h : s.cues = []) (o : FrameOrder) (closes : Bool) :
    cueRest (frameEvent o closes s) = cueRest s := by
  have hrest : cueRest (slewed (opened closes s)) = cueRest s := by
    simp [cueRest, slewed, opened, h]
  rw [frameEvent_of_no_cues h]
  refine Eq.trans ?_ hrest
  show cueRest (besidesPipeline _) = cueRest (besidesPipeline (slewed (opened closes s)))
  rw [besidesPipeline_aroundRelease]

/-- Settles O24: the part left out of the frame events' reach, and the cues' own while none is armed. -/
theorem referenceEventsKeepTheRest : Obligations.ReferenceEventsKeepTheRest := by
  intro c s href
  obtain ⟨t, ht⟩ := Accesses.exec_eq_next c s
  refine ⟨t, ht, ?_, fun hcues => ?_⟩
  · have hrest : frameRest t = frameRest s :=
      reference_keeps (P := fun u => frameRest u = frameRest s) ht href rfl
        (fun u o closes _ hu => (frameRest_frameEvent o closes u).trans hu)
        (fun u _ hu => hu) (fun u _ hu => hu) (fun u _ _ hu => hu)
    simp only [frameRest, laneRest, State.mk.injEq, Composer.mk.injEq, LaneState.mk.injEq,
      Retiming.mk.injEq, Emission.mk.injEq, Parser.mk.injEq] at hrest
    clear ht
    rcases t with ⟨_, _, _, _, _, _, _, _, ⟨⟨⟩⟩, ⟨⟨⟩⟩, ⟨⟩, ⟨⟩, _, _, ⟨⟩, ⟨⟩, _, _, _, _, _, _⟩
    simp_all
  · have hkept : cueRest t = cueRest s ∧ t.cues = [] :=
      reference_keeps (P := fun u => cueRest u = cueRest s ∧ u.cues = []) ht href ⟨rfl, hcues⟩
        (fun u o closes _ ⟨hu, hnone⟩ => by
          have hframe := cueRest_frameEvent hnone o closes
          exact ⟨hframe.trans hu, (congrArg Prod.fst hframe).trans hnone⟩)
        (fun u _ hu => hu) (fun u _ hu => hu) (fun u _ _ hu => hu)
    have hrest := hkept.1
    exact ⟨hkept.2, congrArg (·.2.1) hrest, congrArg (·.2.2.1) hrest, congrArg (·.2.2.2) hrest⟩

end Sys2Proof.FrameEvents
end

section
/-! SUPPORT. The cues of a frame event (R157 to R159): how far their firing has come between the other
reactions, and where it ends, settled. -/

namespace Sys2Proof.FrameEvents

open Sys2Proof.Machine Sys2Proof.Expect Sys2Proof.ProgrammeTime Sys2Proof.LaneRecords
  Sys2Proof.FloorAndHandoff Sys2Proof.Effects Sys2Proof.Directives Sys2Proof.Schedules

/-! ### One cue fired -/

/-- What the cues' actions are known by: the service state, the image buffer and D_target. -/
def actedView (s : State) : Service × ImageBuffer × Nat :=
  (s.service, s.image, s.retiming.delayTarget)

theorem resumeService_eq (s : State) :
    resumeService s =
      if s.image.state = .filling then (s, .state)
      else if s.service = .held then ({ s with service := .run, image := ImageBuffer.clear }, .done)
      else (s, .done) := by
  unfold resumeService
  split <;> simp_all

theorem actedView_congr {s t : State} (h : besidesPipeline s = besidesPipeline t) :
    actedView s = actedView t := by
  show actedView (besidesPipeline s) = actedView (besidesPipeline t)
  rw [h]

theorem actedView_actionOwner (q : Cue) (s : State) :
    actedView (actionOwner q.action s).1 = acted (actedView s) q := by
  cases haction : q.action with
  | hold => simp only [acted, haction]; rfl
  | clear =>
    simp only [acted, haction]
    exact actedView_congr (besidesPipeline_clearWindow s)
  | handoff lane wait =>
    simp only [acted, haction]
    exact actedView_congr (besidesPipeline_handoff lane wait s)
  | delay d =>
    simp only [acted, haction, actionOwner, setDelay_eq, actedView]
  | resume =>
    simp only [acted, haction, actionOwner, resumeService_eq, actedView]
    by_cases hfill : s.image.state = .filling
    · simp [hfill]
    · by_cases hheld : s.service = .held
      · simp [hfill, hheld]
        rfl
      · simp [hfill, hheld]

/-- A refusal is that of a RESUME while the buffer is FILLING, unless a HANDOFF is refused. -/
def refusesResume (s : State) (q : Cue) : Bool :=
  decide (s.image.state = .filling ∧ q.action = .resume)

/-- The counts and the bit of refused and clamped actions. -/
structure ActionCounts where
  refused : Word
  clamped : Word
  bit : Bool

def actionCounts (s : State) : ActionCounts :=
  { refused := s.counters.cueActionsRefused, clamped := s.counters.clamped
    bit := s.attention.getLsbD 7 }

/-- A cue that is no HANDOFF counts its clamp or its refusal (R157, step 3). -/
theorem actionCounts_settle {q : Cue} (hq : isHandoff q = false) (s : State) :
    actionCounts (settleAction (actionOwner q.action s).2 (actionOwner q.action s).1) =
      { refused := upBy (refusesResume s q).toNat s.counters.cueActionsRefused
        clamped := upBy (overTop q).toNat s.counters.clamped
        bit := s.attention.getLsbD 7 || refusesResume s q } := by
  have hsettled : ∀ (u : State) (r : Result), settleAction r u =
      if r = .done then u
      else if r = .clamped then
        { u with counters := { u.counters with clamped := upBy 1 u.counters.clamped } }
      else { u with
        counters := { u.counters with cueActionsRefused := upBy 1 u.counters.cueActionsRefused }
        attention := u.attention ||| 0x80 } := fun u r => by
    cases r <;> simp [settleAction, count, bumpCounter, countUp_eq_up, up, raise, causeBit]
  cases haction : q.action with
  | hold | clear =>
    simp [hsettled, actionOwner, holdService, actionCounts, refusesResume, overTop, haction, upBy_zero]
  | handoff lane wait => simp [isHandoff, haction] at hq
  | delay d =>
    by_cases hd : d.toNat ≤ 300
    · simp [hsettled, actionOwner, setDelay_eq, clampedTo, hd, actionCounts, refusesResume, overTop,
        haction, upBy_zero, Nat.not_lt.mpr hd]
    · simp [hsettled, actionOwner, setDelay_eq, clampedTo, hd, actionCounts, refusesResume, overTop,
        haction, upBy_zero, Nat.not_le.mp hd]
  | resume =>
    by_cases hfill : s.image.state = .filling <;> by_cases hheld : s.service = .held <;>
      simp [hsettled, actionOwner, resumeService_eq, actionCounts, refusesResume, overTop, haction,
        hfill, hheld, upBy_zero]

/-! ### How far the firing has come -/

/-- The refusals among fired cues: the RESUMEs, if the buffer is FILLING. -/
def refusedAmong (filling : Bool) (qs : List Cue) : Nat :=
  if filling then (qs.filter fun q => q.action = .resume).length else 0

/-- From `w` on, the due cues `gone` have fired and the due cues `rest` are still armed. -/
structure Fired (w : State) (gone rest : List Cue) (u : State) : Prop where
  label : fires u.timebase = fires w.timebase
  due : u.cues.filter (fires w.timebase) = rest
  others : u.cues.filter (fun q => !fires w.timebase q) = w.cues.filter fun q => !fires w.timebase q
  stale : u.counters.cuesStale = w.counters.cuesStale
  fired : u.counters.cuesFired = upBy gone.length w.counters.cuesFired
  acted : actedView u = gone.foldl acted (actedView w)
  filling : u.image.state = .filling ↔ w.image.state = .filling
  counts : (∀ q ∈ gone, isHandoff q = false) → actionCounts u =
    { refused := upBy (refusedAmong (decide (w.image.state = .filling)) gone)
        w.counters.cueActionsRefused
      clamped := upBy (gone.filter overTop).length w.counters.clamped
      bit := w.attention.getLsbD 7 ||
        decide (0 < refusedAmong (decide (w.image.state = .filling)) gone) }

theorem Fired.start (w : State) : Fired w [] (w.cues.filter (fires w.timebase)) w where
  label := rfl
  due := rfl
  others := rfl
  stale := rfl
  fired := (upBy_zero _).symm
  acted := rfl
  filling := Iff.rfl
  counts _ := by simp [actionCounts, refusedAmong, upBy_zero]

/-- What a reaction leaves as it was, for the cues. -/
theorem Fired.congr {w u v : State} {gone rest : List Cue} (h : Fired w gone rest u)
    (hlabel : fires v.timebase = fires u.timebase) (hcues : v.cues = u.cues)
    (hacted : actedView v = actedView u) (hcounts : actionCounts v = actionCounts u)
    (hstale : v.counters.cuesStale = u.counters.cuesStale)
    (hfired : v.counters.cuesFired = u.counters.cuesFired) : Fired w gone rest v where
  label := hlabel.trans h.label
  due := by rw [hcues, h.due]
  others := by rw [hcues, h.others]
  stale := hstale.trans h.stale
  fired := hfired.trans h.fired
  acted := hacted.trans h.acted
  filling := by
    have himage : v.image = u.image := congrArg (·.2.1) hacted
    rw [himage, h.filling]
  counts hgone := hcounts.trans (h.counts hgone)

/-- Admission, release and the pass timer fire no cue. -/
theorem Fired.besides {w u v : State} {gone rest : List Cue} (h : Fired w gone rest u)
    (huv : besidesPipeline v = besidesPipeline u) : Fired w gone rest v := by
  have hcounts : actionCounts (besidesPipeline v) = actionCounts (besidesPipeline u) := by rw [huv]
  exact h.congr (congrArg (fun s => fires s.timebase) huv) (congrArg (·.cues) huv)
    (actedView_congr huv) hcounts (congrArg (·.counters.cuesStale) huv)
    (congrArg (·.counters.cuesFired) huv)

theorem Fired.slewed {w u : State} {gone rest : List Cue} (h : Fired w gone rest u) :
    Fired w gone rest (slewed u) := h.congr rfl rfl rfl rfl rfl rfl

/-- With no due cue armed nothing fires. -/
theorem Fired.stop {w u : State} {gone : List Cue} (h : Fired w gone [] u) : fireOldest u = u := by
  have hnone : u.cues.find? (cueDue u.timebase) = none := by
    refine List.find?_eq_none.mpr fun q hq => ?_
    rw [cueDue_eq_fires, h.label]
    exact List.filter_eq_nil_iff.mp h.due q hq
  simp only [fireOldest, hnone]

/-- The fired action's settlement leaves the cues and what they are known by. -/
theorem settleAction_keeps (r : Result) (s : State) :
    (settleAction r s).counters.cuesStale = s.counters.cuesStale ∧
    (settleAction r s).counters.cuesFired = s.counters.cuesFired ∧
    actedView (settleAction r s) = actedView s := by
  cases r <;> exact ⟨rfl, rfl, rfl⟩

/-- Neither does the action count as the cues do. -/
theorem actionOwner_keeps (a : CueAction) (s : State) :
    (actionOwner a s).1.counters.cuesStale = s.counters.cuesStale ∧
    (actionOwner a s).1.counters.cuesFired = s.counters.cuesFired := by
  have hpipeline : ∀ u : State, besidesPipeline u = besidesPipeline s →
      u.counters.cuesStale = s.counters.cuesStale ∧ u.counters.cuesFired = s.counters.cuesFired :=
    fun u hu => ⟨congrArg (·.counters.cuesStale) hu, congrArg (·.counters.cuesFired) hu⟩
  cases a with
  | hold | delay => exact ⟨rfl, rfl⟩
  | clear => exact hpipeline _ (besidesPipeline_clearWindow s)
  | handoff lane wait => exact hpipeline _ (besidesPipeline_handoff lane wait s)
  | resume =>
    simp only [actionOwner, resumeService_eq]
    split_ifs <;> exact ⟨rfl, rfl⟩

theorem acted_filling (v : Service × ImageBuffer × Nat) (q : Cue) :
    (acted v q).2.1.state = .filling ↔ v.2.1.state = .filling := by
  unfold acted
  split <;> try rfl
  split_ifs with h
  · simp [h.2]
  · rfl

theorem refusedAmong_concat (filling : Bool) (gone : List Cue) (q : Cue) :
    refusedAmong filling (gone ++ [q]) =
      refusedAmong filling gone + (filling && decide (q.action = .resume)).toNat := by
  by_cases hq : q.action = .resume <;> cases filling <;> simp [refusedAmong, hq]

/-- The oldest due cue fires. -/
theorem Fired.step {w u : State} {gone rest : List Cue} {q : Cue} (h : Fired w gone (q :: rest) u) :
    Fired w (gone ++ [q]) rest (fireOldest u) := by
  obtain ⟨older, younger, hcues, holder, hq, hyounger⟩ := List.filter_eq_cons_iff.mp h.due
  have holder' : ∀ p ∈ older, fires u.timebase p = false := fun p hp => by
    simpa [h.label] using holder p hp
  have hfire := fireOldest_of_due hcues holder' (by rw [h.label, hq])
  set s : State := count .cuesFired { u with cues := older ++ younger } with hs
  have hstart : fireOldest u = settleAction (actionOwner q.action s).2 (actionOwner q.action s).1 :=
    hfire
  obtain ⟨hstale, hfired, hacted⟩ := settleAction_keeps (actionOwner q.action s).2
    (actionOwner q.action s).1
  obtain ⟨hstale', hfired'⟩ := actionOwner_keeps q.action s
  have htimebase : (fireOldest u).timebase = u.timebase := by simp
  have hcues' : (fireOldest u).cues = older ++ younger := by simp [hstart, hs]
  have hview : actedView (fireOldest u) = Expect.acted (actedView u) q := by
    rw [hstart, hacted, actedView_actionOwner]
    rfl
  have hfilling : (fireOldest u).image.state = .filling ↔ w.image.state = .filling := by
    have himage : (fireOldest u).image = (Expect.acted (actedView u) q).2.1 := congrArg (·.2.1) hview
    rw [himage, acted_filling]
    exact h.filling
  refine ⟨by rw [htimebase, h.label], ?_, ?_, ?_, ?_, ?_, hfilling, fun hgone => ?_⟩
  · rw [hcues', List.filter_append, hyounger, List.filter_eq_nil_iff.mpr holder, List.nil_append]
  · rw [← h.others, hcues, hcues', List.filter_append, List.filter_append,
      List.filter_cons_of_neg (by simp [hq])]
  · rw [hstart, hstale, hstale', ← h.stale]
    rfl
  · rw [hstart, hfired, hfired', hs]
    simp [bumpCounter, countUp_eq_up, up, h.fired, upBy_upBy]
  · rw [hview, h.acted, List.foldl_append]
    rfl
  · have hold := h.counts fun p hp => hgone p (by simp [hp])
    have hresume : refusesResume s q =
        (decide (w.image.state = .filling) && decide (q.action = .resume)) := by
      have himage : s.image = u.image := rfl
      simp only [refusesResume, himage, h.filling, Bool.decide_and]
    have hrefused : s.counters.cueActionsRefused = u.counters.cueActionsRefused := rfl
    have hclamped : s.counters.clamped = u.counters.clamped := rfl
    have hbit : s.attention = u.attention := rfl
    simp only [actionCounts, ActionCounts.mk.injEq] at hold
    obtain ⟨hr, hc, hb⟩ := hold
    rw [hstart, actionCounts_settle (hgone q (by simp)), hresume, hrefused, hclamped, hbit, hr, hc, hb,
      refusedAmong_concat, upBy_upBy, upBy_upBy, List.filter_append, List.length_append]
    have hover : ([q].filter overTop).length = (overTop q).toNat := by
      cases htop : overTop q <;> simp [htop]
    rw [hover]
    congr 1
    cases (decide (w.image.state = .filling) && decide (q.action = .resume)) <;> simp

/-! ### The reactions in their order -/

/-- Some of the due cues have fired, in arming order, and the others are armed. -/
def firingFrom (w u : State) : Prop :=
  ∃ gone rest, gone ++ rest = w.cues.filter (fires w.timebase) ∧ Fired w gone rest u

/-- `n` firings fire the next `n` due cues, if there are so many. -/
theorem Fired.fireUpTo {w u : State} {gone rest : List Cue} (h : Fired w gone rest u) (n : Nat) :
    Fired w (gone ++ rest.take n) (rest.drop n) (fireUpTo n u) := by
  induction n generalizing gone rest u with
  | zero => simpa [Machine.fireUpTo] using h
  | succ n ih =>
    rw [Machine.fireUpTo]
    cases rest with
    | nil =>
      rw [h.stop]
      simpa using ih h
    | cons q rest => simpa using ih h.step

theorem firingFrom_fireUpTo {w u : State} (h : firingFrom w u) (n : Nat) :
    firingFrom w (fireUpTo n u) := by
  obtain ⟨gone, rest, hall, hfired⟩ := h
  exact ⟨_, _, by rw [List.append_assoc, List.take_append_drop, hall], hfired.fireUpTo n⟩

theorem firingFrom_besides {w u v : State} (h : firingFrom w u)
    (huv : besidesPipeline v = besidesPipeline u) : firingFrom w v := by
  obtain ⟨gone, rest, hall, hfired⟩ := h
  exact ⟨gone, rest, hall, hfired.besides huv⟩

theorem firingFrom_slewed {w u : State} (h : firingFrom w u) : firingFrom w (slewed u) := by
  obtain ⟨gone, rest, hall, hfired⟩ := h
  exact ⟨gone, rest, hall, hfired.slewed⟩

/-- After as many firings as there are cues, every due cue has fired. -/
theorem fired_fireAll {w u : State} (h : firingFrom w u) :
    Fired w (w.cues.filter (fires w.timebase)) [] (fireAll u) := by
  obtain ⟨gone, rest, hall, hfired⟩ := h
  have hle : rest.length ≤ u.cues.length := by
    rw [← hfired.due]
    exact List.length_filter_le _ _
  have hend := hfired.fireUpTo u.cues.length
  rwa [List.take_of_length_le hle, List.drop_eq_nil_of_le hle, hall] at hend

/-- Whatever the order, every due cue has fired at the end of the reactions (R157, log 3). -/
theorem fired_react (o : FrameOrder) (w : State) :
    Fired w (w.cues.filter (fires w.timebase)) [] (react o w) := by
  have hstart : firingFrom w w := ⟨[], _, rfl, Fired.start w⟩
  have htimer : ∀ {u}, firingFrom w u → firingFrom w (passTimerStep u) := fun hu =>
    firingFrom_besides hu (by rw [passTimerStep_eq_timed, besidesPipeline_timed])
  have hrelease : ∀ {u}, firingFrom w u → firingFrom w (releasePass u) := fun hu =>
    firingFrom_besides hu (besidesPipeline_releasePass _)
  have hslew : ∀ {u}, firingFrom w u → firingFrom w (slewStep u) := fun hu => by
    rw [slewStep_eq]
    exact firingFrom_slewed hu
  have hfire : ∀ n {u}, firingFrom w u → firingFrom w (fireSome n u) := fun n _ hu =>
    firingFrom_fireUpTo hu _
  unfold react reactionsOf
  dsimp only
  cases o.timer with
  | beforeSlew => exact fired_fireAll (hrelease (hfire _ (hslew (hfire _ (htimer (hfire _ hstart))))))
  | beforeRelease =>
    exact fired_fireAll (hrelease (hfire _ (htimer (hfire _ (hslew (hfire _ hstart))))))
  | afterRelease =>
    exact fired_fireAll (htimer (hfire _ (hrelease (hfire _ (hslew (hfire _ hstart))))))

/-! ### CUE_FIREs behind the other reactions -/

/-- A state with other cues armed, and another count of stale ones. -/
def withCues (l : List Cue) (k : Word) (s : State) : State :=
  { s with cues := l, counters := { s.counters with cuesStale := k } }

/-- The pipeline does not look at the cues. -/
theorem runAlike_withCues (l : List Cue) (k : Word) : RunAlike fun s t => t = withCues l k s where
  queue := by rintro s _ rfl x; cases x <;> rfl
  schedule := by rintro s _ rfl; rfl
  floor := by rintro s _ rfl; rfl
  entered := by rintro s _ rfl x k rest; cases x <;> rfl
  passed := by rintro s _ rfl x; cases x <;> rfl
  lowered := by rintro s _ rfl f; rfl
  service := by rintro s _ rfl; rfl
  stale := by rintro s _ rfl k; rfl
  ripe := by rintro s _ rfl k; rfl
  fits := by rintro s _ rfl k; rfl
  discarded := by rintro s _ rfl k rest; rfl
  released := by
    rintro s _ rfl j rest
    have hcomposer : (withCues l k s).composer = s.composer := rfl
    rw [released, released, hcomposer]
    generalize composition j s.composer.cursor s.composer.layout.width = g
    obtain ⟨roll, cs⟩ := g
    cases roll <;> rfl

theorem exec_cueFire {s : State} (hlow : s.resetLow = false) (hs : s.timebase.state ≠ .absent) :
    exec .cueFire s = .next (fireOldest s) := exec_outsideAbsent _ hlow hs

theorem firings_fireUpTo (n : Nat) {s : State} (hlow : s.resetLow = false)
    (hs : s.timebase.state ≠ .absent) : firings n s (fireUpTo n s) := by
  induction n generalizing s with
  | zero => rfl
  | succ n ih => exact ⟨_, exec_cueFire hlow hs, ih (by simpa using hlow) (by simpa using hs)⟩

theorem beforeFrame_state {c : Instr} {s : State} (h : opensOneFrame c s) :
    (beforeFrame c s).timebase.state ≠ .absent := by
  cases c with
  | fpEdge | freewheelDeadline => simp [beforeFrame, lockAt, freewheelAt]
  | nextPulse => simp [beforeFrame, pulseAt, h.2.1]
  | _ => exact h.2.elim

theorem firesLast_iff {c : Instr} {s : State} (h : opensOneFrame c s) (hlast : firesLast c) :
    (orderOf c).cuesFirst = 0 ∧ (orderOf c).cuesSecond = 0 ∧ (orderOf c).cuesThird = 0 := by
  cases c with
  | fpEdge | freewheelDeadline | nextPulse => exact hlast
  | _ => exact hlast.elim

/-- The frame that a command opens, its reactions still to come. -/
def frameOpened (c : Instr) (s : State) : State :=
  opened (decide (s.timebase.state ≠ .absent)) (beforeFrame c s)

theorem frameOpened_cues (c : Instr) (s : State) :
    (frameOpened c s).cues = s.cues.filter fun q => !outlived (frameOpened c s).timebase q := by
  cases c <;> rfl

theorem actionCounts_frameOpened (c : Instr) (s : State) :
    actionCounts (frameOpened c s) = actionCounts s := by
  have hbit : ∀ v : State, ∀ closes, (opened closes v).attention.getLsbD 7 = v.attention.getLsbD 7 :=
    fun v closes => by
      rw [opened_attention, BitVec.getLsbD_or, BitVec.getLsbD_or]
      split_ifs <;> simp
  have hbefore : (beforeFrame c s).attention.getLsbD 7 = s.attention.getLsbD 7 := by
    cases c <;> simp [beforeFrame, lockAt, freewheelAt, pulseAt]
  have hview : actionCounts (frameOpened c s) = { actionCounts (beforeFrame c s) with
      bit := (frameOpened c s).attention.getLsbD 7 } := rfl
  rw [hview, frameOpened, hbit, hbefore]
  cases c <;> rfl

/-- Where the cues fire last, the frame event is the one without cues and then as many CUE_FIREs as
cues are due. -/
theorem firings_of_firesLast {c : Instr} {s : State} (h : opensOneFrame c s) (hlast : firesLast c) :
    ∃ u, exec c { s with cues := [] } = .next u ∧
      firings ((frameOpened c s).cues.filter (fires (frameOpened c s).timebase)).length
        (withCues (frameOpened c s).cues (frameOpened c s).counters.cuesStale u)
        (react (orderOf c) (frameOpened c s)) := by
  refine ⟨_, exec_of_no_cues (s := { s with cues := [] }) h rfl, ?_⟩
  have hstart : slewed (frameOpened c s) =
      withCues (frameOpened c s).cues (frameOpened c s).counters.cuesStale
        (frameSlewed c { s with cues := [] }) := by cases c <;> rfl
  have halike := (runAlike_withCues (frameOpened c s).cues
    (frameOpened c s).counters.cuesStale).aroundRelease (orderOf c).timer hstart
  rw [← halike, react_of_last (firesLast_iff h hlast)]
  set w := frameOpened c s with hw
  set x := aroundRelease (orderOf c).timer timed (slewed w) with hx
  have hfired : Fired w [] (w.cues.filter (fires w.timebase)) x :=
    (Fired.start w).slewed.besides (besidesPipeline_aroundRelease _ _)
  have hle : (w.cues.filter (fires w.timebase)).length ≤ x.cues.length := by
    rw [← hfired.due]
    exact List.length_filter_le _ _
  have hdone : ∀ m {u}, Fired w (w.cues.filter (fires w.timebase)) [] u → fireUpTo m u = u := by
    intro m u hu
    induction m with
    | zero => rfl
    | succ m ih => rw [fireUpTo, hu.stop, ih]
  have hsplit : ∀ n m (u : State), fireUpTo (n + m) u = fireUpTo m (fireUpTo n u) := by
    intro n m u
    induction n generalizing u with
    | zero => simp [fireUpTo]
    | succ n ih => rw [Nat.succ_add, fireUpTo, ih, fireUpTo]
  have hall : fireAll x = fireUpTo (w.cues.filter (fires w.timebase)).length x := by
    obtain ⟨m, hm⟩ := Nat.exists_eq_add_of_le hle
    have hend := hfired.fireUpTo (w.cues.filter (fires w.timebase)).length
    rw [List.take_length, List.drop_length, List.nil_append] at hend
    rw [fireAll, hm, hsplit, hdone m hend]
  have hrest : besidesPipeline x = besidesPipeline (slewed w) := besidesPipeline_aroundRelease _ _
  have hlow : x.resetLow = false := by
    refine (congrArg (·.resetLow) hrest).trans (Eq.trans ?_ h.1)
    rw [hw]
    cases c <;> rfl
  have hstate : x.timebase.state ≠ .absent := by
    have hkept : x.timebase.state = (slewed w).timebase.state := congrArg (·.timebase.state) hrest
    rw [hkept]
    exact beforeFrame_state h
  rw [hall]
  exact firings_fireUpTo _ hlow hstate

/-- Settles O22: the opening retires, the reactions fire what is due, whatever their order. -/
theorem frameEventFiresDueCues : Obligations.FrameEventFiresDueCues := by
  intro c s h
  have ht := exec_of_opensOneFrame h
  rw [frameEvent, openFrame_eq] at ht
  have hfired := fired_react (orderOf c) (frameOpened c s)
  have htimebase : (react (orderOf c) (frameOpened c s)).timebase =
      (slewStep (frameOpened c s)).timebase :=
    congrArg (·.timebase) (besidesReactions_react (orderOf c) (frameOpened c s))
  have houtlived : outlived (react (orderOf c) (frameOpened c s)).timebase =
      outlived (frameOpened c s).timebase := by
    rw [htimebase, slewStep_eq]
    rfl
  have hstale : (frameOpened c s).counters.cuesStale =
      upBy (s.cues.filter fun q => outlived (frameOpened c s).timebase q).length
        s.counters.cuesStale := by cases c <;> rfl
  have hacted : actedView (frameOpened c s) = actedView s := by cases c <;> rfl
  have himage : (frameOpened c s).image = s.image := congrArg (·.2.1) hacted
  refine ⟨react (orderOf c) (frameOpened c s), ht, ?_⟩
  simp only [hfired.label, houtlived, ← frameOpened_cues]
  refine ⟨?_, ?_, ?_, ?_, fun hnone => ?_, fun hlast => ?_⟩
  · have hdue := List.filter_eq_nil_iff.mp hfired.due
    have hself : (react (orderOf c) (frameOpened c s)).cues.filter
        (fun q => !fires (frameOpened c s).timebase q) = (react (orderOf c) (frameOpened c s)).cues :=
      List.filter_eq_self.mpr fun q hq => by simpa using hdue q hq
    rw [← hself, hfired.others]
    nth_rewrite 1 [frameOpened_cues]
    rw [List.filter_filter]
    simp only [Bool.and_comm]
  · rw [hfired.stale, hstale]
  · rw [hfired.fired]
    cases c <;> rfl
  · exact hfired.acted.trans (by rw [hacted]; rfl)
  · have hcounts := hfired.counts hnone
    have hbefore := actionCounts_frameOpened c s
    simp only [actionCounts, ActionCounts.mk.injEq] at hcounts hbefore
    obtain ⟨hr, hc, hb⟩ := hcounts
    obtain ⟨hr', hc', hb'⟩ := hbefore
    rw [hr', himage] at hr
    rw [hc'] at hc
    rw [hb', himage] at hb
    simp only [refusedAmong, decide_eq_true_eq] at hr hb
    exact ⟨hr, hc, hb⟩
  · obtain ⟨u, hu, hfirings⟩ := firings_of_firesLast h hlast
    refine ⟨u, hu, ?_⟩
    rw [hfired.stale]
    exact hfirings

end Sys2Proof.FrameEvents
end

section
/-! SUPPORT. The moves of the part. Every command is a course of moves: moves of the caption pipeline,
one for each thing that can happen to a token, a cell or an entry, and steps aside from it. What every
move keeps, every step keeps. -/

namespace Sys2Proof.Moves

open Sys2Proof.Machine Sys2Proof.Expect Sys2Proof.Safety Sys2Proof.ProgrammeTime
  Sys2Proof.FloorAndHandoff Sys2Proof.Effects Sys2Proof.Directives Sys2Proof.Schedules
  Sys2Proof.FrameEvents

/-! ### Steps aside from the pipeline -/

/-- The caption pipeline: what waits, what is timed, what is composed and what the stacks name. -/
structure Line where
  queueA : List Token
  queueB : List Token
  schedule : List Token
  stackA : List StackEntry
  stackB : List StackEntry
  lastA : Option Frame
  lastB : Option Frame
  tail : Option Frame
  composer : Composer

/-- The pipeline of a state. -/
def lineOf (s : State) : Line :=
  { queueA := s.laneA.queue, queueB := s.laneB.queue, schedule := s.schedule,
    stackA := s.laneA.stack, stackB := s.laneB.stack, lastA := s.laneA.speechLast,
    lastB := s.laneB.speechLast, tail := s.retiming.speechTail, composer := s.composer }

/-- Every range that holds of the first state holds of the second. -/
structure Ranges (s t : State) : Prop where
  settings : SettingsHold s → SettingsHold t
  timebase : TimebaseHolds s → TimebaseHolds t
  floor : FloorHolds s → FloorHolds t
  service : ServiceHolds s → ServiceHolds t
  cueCount : s.cues.length ≤ 8 → t.cues.length ≤ 8
  cueTargets : (∀ q ∈ s.cues, q.target < 4294967296) → ∀ q ∈ t.cues, q.target < 4294967296
  sram : SramHolds s → SramHolds t

theorem Ranges.refl (s : State) : Ranges s s := ⟨id, id, id, id, id, id, id⟩

theorem Ranges.trans {s t u : State} (h : Ranges s t) (h' : Ranges t u) : Ranges s u :=
  ⟨h'.settings ∘ h.settings, h'.timebase ∘ h.timebase, h'.floor ∘ h.floor, h'.service ∘ h.service,
    h'.cueCount ∘ h.cueCount, h'.cueTargets ∘ h.cueTargets,
    h'.sram ∘ h.sram⟩

/-- A lane without its tokens, stack and parser. -/
def lagsOf (l : LaneState) : LaneState :=
  { LaneState.reset with lagTarget := l.lagTarget, lagEff := l.lagEff }

/-- A state with nothing but what the ranges speak of. -/
def rangeView (s : State) : State :=
  { State.atRelease 0 s.rate with
    sram := s.sram
    timebase := s.timebase
    laneA := lagsOf s.laneA
    laneB := lagsOf s.laneB
    retiming := { s.retiming with speechTail := none }
    floor := s.floor
    composer := { Composer.reset with layout := s.composer.layout }
    cues := s.cues
    service := s.service
    image := s.image }

theorem Ranges.of_view {s t : State} (h : rangeView t = rangeView s) : Ranges s t where
  settings hs := by
    have hview : SettingsHold (rangeView s) := hs
    rwa [← h] at hview
  timebase hs := by
    have hview : TimebaseHolds (rangeView s) := hs
    rwa [← h] at hview
  floor hs := by
    have hview : FloorHolds (rangeView s) := hs
    rwa [← h] at hview
  service hs := by
    have hview : ServiceHolds (rangeView s) := hs
    rwa [← h] at hview
  cueCount hs := by
    have hview : (rangeView s).cues.length ≤ 8 := hs
    rwa [← h] at hview
  cueTargets hs := by
    have hview : ∀ q ∈ (rangeView s).cues, q.target < 4294967296 := hs
    rwa [← h] at hview
  sram hs := by
    have hview : SramHolds (rangeView s) := hs
    rwa [← h] at hview

/-- A step aside: the pipeline stays, and so do the ranges. -/
structure Aside (s t : State) : Prop where
  line : lineOf t = lineOf s
  ranges : Ranges s t

theorem Aside.trans {s t u : State} (h : Aside s t) (h' : Aside t u) : Aside s u :=
  ⟨h'.line.trans h.line, h.ranges.trans h'.ranges⟩

theorem Aside.of_view {s t : State} (hline : lineOf t = lineOf s)
    (hview : rangeView t = rangeView s) : Aside s t := ⟨hline, .of_view hview⟩

/-! ### Moves -/

/-- The part after a LAYOUT: the row closed, the layout stored and its PLACE pair at the tail. -/
def laid (l : Layout) (s : State) : State :=
  appendCells (placePair l)
    { closed s with composer := { (closed s).composer with layout := l } }

/-- The part after the pin's release, with the card's SRAM and the commands that wait (R180). -/
def afterRelease (span : BitVec 5) (rate : BitVec 2) (s : State) : State :=
  { State.atRelease span rate with sram := s.sram, pending := s.pending }

/-- One move of the part, in a command that began at `s₀`: a token is created and an image is loaded
at the very start of a command alone. -/
inductive Move (s₀ : State) : State → State → Prop
  | aside {s t : State} (h : Aside s t) : Move s₀ s t
  | queued {s : State} (x : Lane) (kind : TokenKind) (sentEnd attach : Bool) (text : List Byte)
      (hroom : (laneOf x s₀).queue.length ≤ 48 → (laneOf x s).queue.length < 48)
      (htext : textHolds (token x kind sentEnd attach text s) = true)
      (hstart : s.timebase.e = s₀.timebase.e) :
      Move s₀ s (queued (token x kind sentEnd attach text s) s)
  | shed {s : State} (x : Lane) : Move s₀ s (shedHead x s)
  | entered {s : State} (x : Lane) (k : Token) (rest : List Token)
      (hqueue : (laneOf x s).queue = k :: rest) (hroom : s.schedule.length < 96) :
      Move s₀ s (entered x k rest s)
  | passed {s : State} (x : Lane) : Move s₀ s (passed x s)
  | discarded {s : State} (k : Token) (rest : List Token) (hhead : s.schedule = k :: rest) :
      Move s₀ s (discarded k rest s)
  | released {s : State} (k : Token) (rest : List Token) (hhead : s.schedule = k :: rest)
      (hfits : groupFits k s = true) : Move s₀ s (released k rest s)
  | flushed {s : State} (x : Lane) : Move s₀ s (flushed x s)
  | laid {s : State} (l : Layout) (hvalid : layoutValid l = true)
      (hroom : s.composer.cells.length ≤ 62) : Move s₀ s (laid l s)
  | cleared {s : State} : Move s₀ s (clearWindow s)
  | forgotten {s : State} (x : Lane) (en : StackEntry) (rest : List StackEntry)
      (hstack : (laneOf x s).stack = en :: rest) : Move s₀ s (setStack x rest s)
  | recalled {s : State} (x : Lane) (en : StackEntry) (rest : List StackEntry)
      (hstack : (laneOf x s).stack = en :: rest) (htag : en.tag = .waiting) :
      Move s₀ s (setQueue x (withoutToken en.id (laneOf x s).queue) (setStack x rest s))
  | unscheduled {s : State} (x : Lane) (en : StackEntry) (rest : List StackEntry)
      (hstack : (laneOf x s).stack = en :: rest) (htag : en.tag = .pending) :
      Move s₀ s { setStack x rest s with schedule := withoutToken en.id s.schedule }
  | undone {s : State} (x : Lane) (en : StackEntry) (rest : List StackEntry) (left : List Span)
      (sp : Span) (hstack : (laneOf x s).stack = en :: rest)
      (htag : en.tag = .composed ∨ en.tag = .sending ∨ en.tag = .shown)
      (hspans : s.composer.spans = left ++ [sp]) (hid : sp.id = en.id) :
      Move s₀ s (undoLast sp (setStack x rest s))
  | taken {s : State} (c : Cell) (rest : List Cell) (hcells : s.composer.cells = c :: rest) :
      Move s₀ s (takeCells 1 s)
  | restarted {s : State} : Move s₀ s (restart s)
  | reset {s : State} (span : BitVec 5) (rate : BitVec 2) : Move s₀ s (afterRelease span rate s)
  | loaded {s : State} (g : ImageSections) (hhigh : s₀.resetLow = false)
      (htime : s.timebase = s₀.timebase) (himage : s.image = s₀.image)
      (hfill : s.image.state = .filling)
      (hvalid : validImage s.timebase.epoch s.image = some g) :
      Move s₀ s (loadSections s.image.words g s)

/-- The part as a command of the rings finds it: little but counters and parsers has moved since the
command began. -/
structure Begun (s₀ s : State) : Prop where
  high : s₀.resetLow = false
  time : s.timebase = s₀.timebase
  image : s.image = s₀.image
  line : lineOf s = lineOf s₀

/-- A course of moves. -/
abbrev Course (s₀ : State) : State → State → Prop := Relation.ReflTransGen (Move s₀)

theorem Course.aside {s₀ s t : State} (h : Aside s t) : Course s₀ s t := .single (.aside h)

/-- A step aside that leaves what the ranges speak of. -/
theorem Course.of_view {s₀ s t : State} (hline : lineOf t = lineOf s)
    (hview : rangeView t = rangeView s) : Course s₀ s t := .aside (.of_view hline hview)

/-! ### Admission, passes and release -/

variable {s₀ : State}

theorem course_admitToken {s : State} {x : Lane} {k : Token} {rest : List Token}
    (hqueue : (laneOf x s).queue = k :: rest) (hroom : s.schedule.length < 96) :
    Course s₀ s (admitToken x k rest s) := by
  have henter : Course s₀ s (entered x k rest s) := .single (.entered x k rest hqueue hroom)
  rcases admitToken_cases x k rest s with heq | ⟨-, -, heq⟩
  · rwa [heq]
  · rw [heq]
    exact henter.tail (.passed _)

theorem course_admissionRun (s : State) : Course s₀ s (admissionRun s) :=
  admissionRun_induction (P := Course s₀ s) .refl fun _ _ _ hu hqueue hroom =>
    hu.trans (course_admitToken hqueue hroom)

theorem course_handedOver (x : Lane) (s : State) : Course s₀ s (handedOver x s) :=
  Relation.ReflTransGen.head (.passed x) (course_admissionRun _)

/-- A lower timer is a step aside, and a floor state in which no pass runs with its timer at 0. -/
theorem aside_floor {s : State} {f : Floor} (h : FloorHolds s → FloorHolds { s with floor := f }) :
    Aside s { s with floor := f } := ⟨rfl, id, id, h, id, id, id, id⟩

theorem course_timed (s : State) : Course s₀ s (timed s) := by
  unfold timed
  split_ifs with hnone hlast
  · exact .refl
  · exact course_handedOver _ s
  · exact .aside (aside_floor fun ⟨hle, _⟩ => ⟨by simp only; omega, fun h => absurd h hnone⟩)

theorem course_releasePass (s : State) : Course s₀ s (releasePass s) :=
  releasePass_keeps (P := Course s₀ s) .refl
    (fun _ _ _ hu hqueue hroom => hu.trans (course_admitToken hqueue hroom))
    (fun _ _ _ hu hhead => hu.tail (.discarded _ _ hhead))
    (fun _ _ _ hu hhead hfits => hu.tail (.released _ _ hhead hfits))

theorem course_flushLane (x : Lane) (s : State) : Course s₀ s (flushLane x s) := by
  rw [flushLane_eq]
  exact Relation.ReflTransGen.head (.flushed x) (course_admissionRun _)

theorem course_startPass (x : Lane) {wait : Nat} (hwait : wait ≤ 250) (s : State) :
    Course s₀ s (startPass x wait s) := by
  have hlower : Aside s { s with floor := { state := passingFrom x, timer := wait } } :=
    aside_floor fun _ => ⟨hwait, fun h => by cases x <;> cases h⟩
  unfold startPass
  dsimp only
  split_ifs
  · rw [completePassAndAdmit, completePass_eq_passed]
    exact (Course.aside hlower).trans (course_handedOver x _)
  · exact .aside hlower

theorem course_handoff (lane wait : Word) (s : State) : Course s₀ s (handoff lane wait s).1 := by
  unfold handoff
  split
  · exact .refl
  · dsimp only
    split
    · split_ifs
      · exact .aside (aside_floor fun _ => ⟨Nat.zero_le _, fun _ => rfl⟩)
      · exact .refl
    · split_ifs with _ hwait
      · exact .refl
      · exact course_startPass _ hwait s
      · exact course_startPass _ (le_refl _) s

end Sys2Proof.Moves
end

section
/-! SUPPORT. Every command as a course of moves: directives, lane records, the reference and the
accesses to the span. -/

namespace Sys2Proof.Moves

open Sys2Proof.Machine Sys2Proof.Expect Sys2Proof.Safety Sys2Proof.ProgrammeTime
  Sys2Proof.FloorAndHandoff Sys2Proof.Effects Sys2Proof.Directives Sys2Proof.Schedules
  Sys2Proof.FrameEvents Sys2Proof.Records Sys2Proof.Corrections Sys2Proof.Emissions

variable {s₀ : State}

/-! ### Directives -/

theorem aside_settings {s t : State} (hline : lineOf t = lineOf s)
    (hview : rangeView { t with
        retiming := s.retiming
        laneA := { t.laneA with lagTarget := s.laneA.lagTarget, lagEff := s.laneA.lagEff }
        laneB := { t.laneB with lagTarget := s.laneB.lagTarget, lagEff := s.laneB.lagEff }
        timebase := s.timebase } = rangeView s)
    (hsettings : SettingsHold s → SettingsHold t)
    (htimebase : TimebaseHolds s → TimebaseHolds t) : Aside s t := by
  have hranges := Ranges.of_view hview
  exact ⟨hline, hsettings, htimebase, hranges.floor, hranges.service, hranges.cueCount,
    hranges.cueTargets, hranges.sram⟩

theorem aside_setDelay (d : Word) (s : State) : Aside s (setDelay d s).1 := by
  rw [setDelay_eq]
  refine aside_settings rfl rfl (fun h => ?_) id
  obtain ⟨-, hrest⟩ := h
  exact ⟨Nat.min_le_right _ _, hrest⟩

theorem aside_setLag (lane l : Word) (s : State) : Aside s (setLag lane l s).1 := by
  by_cases hlane : 1 < lane.toNat
  · rw [setLag_of_range hlane]
    exact ⟨rfl, .refl s⟩
  · rw [setLag_of_lane hlane]
    cases laneNamed lane.toNat with
    | a =>
      refine aside_settings rfl rfl (fun h => ?_) id
      obtain ⟨hdt, hde, -, hrest⟩ := h
      exact ⟨hdt, hde, Nat.min_le_right _ _, hrest⟩
    | b =>
      refine aside_settings rfl rfl (fun h => ?_) id
      obtain ⟨hdt, hde, hat, hae, -, hrest⟩ := h
      exact ⟨hdt, hde, hat, hae, Nat.min_le_right _ _, hrest⟩

theorem aside_setLead (n : Word) (s : State) : Aside s (setLead n s).1 := by
  rw [setLead_eq]
  refine aside_settings rfl rfl (fun h => ?_) id
  obtain ⟨hdt, hde, hat, hae, hbt, hbe, -, hrest⟩ := h
  exact ⟨hdt, hde, hat, hae, hbt, hbe, Nat.min_le_right _ _, hrest⟩

theorem aside_setHorizon (n : Word) (s : State) : Aside s (setHorizon n s).1 := by
  rw [setHorizon_eq]
  refine aside_settings rfl rfl (fun h => ?_) id
  obtain ⟨hdt, hde, hat, hae, hbt, hbe, hlead, -, -, hrest⟩ := h
  exact ⟨hdt, hde, hat, hae, hbt, hbe, hlead, Nat.le_max_left _ _, by simp only; omega, hrest⟩

theorem slewPeriod_pos (m : SlewMode) : 0 < slewPeriod m := by
  cases m <;> decide

theorem aside_setSlew (mode : Word) (s : State) : Aside s (setSlew mode s).1 := by
  by_cases hmode : 1 < mode.toNat
  · rw [setSlew_of_range hmode]
    exact ⟨rfl, .refl s⟩
  · rw [setSlew_of_mode hmode]
    refine aside_settings rfl rfl id fun h => ?_
    obtain ⟨-, hrest⟩ := h
    exact ⟨slewPeriod_pos _, hrest⟩

theorem course_layoutDirective (base depth left width : Word) (s : State) :
    Course s₀ s (layoutDirective base depth left width s).1 := by
  unfold layoutDirective
  dsimp only
  split_ifs with hvalid hfull
  · exact .refl
  · exact .refl
  · rw [closeRow_eq_closed]
    refine .single (.laid _ (by simpa using hvalid) ?_)
    simp only [freePlaces, Config.cellQueueCapacity] at hfull
    omega

/-- A new service state or image buffer is a step aside where the two agree. -/
theorem aside_service {s : State} {v : Service} {b : ImageBuffer}
    (h : ServiceHolds s → ServiceHolds { s with service := v, image := b }) :
    Aside s { s with service := v, image := b } := ⟨rfl, id, id, id, h, id, id, id⟩

theorem serviceHolds_clear (s : State) (v : Service) :
    ServiceHolds { s with service := v, image := ImageBuffer.clear } := ⟨fun _ => rfl, rfl⟩

theorem aside_resumeService (s : State) : Aside s (resumeService s).1 := by
  rw [resumeService_eq]
  split_ifs
  · exact ⟨rfl, .refl s⟩
  · exact aside_service fun _ => serviceHolds_clear s _
  · exact ⟨rfl, .refl s⟩

theorem aside_takeSnapshot (s : State) : Aside s (takeSnapshot s).1 := by
  unfold takeSnapshot
  split_ifs with h
  · exact ⟨rfl, .refl s⟩
  · rw [not_or] at h
    exact aside_service (v := s.service) fun _ => ⟨fun hrun => absurd hrun h.1, by simp [bufferHolds]⟩

theorem aside_openRestore (s : State) : Aside s (openRestore s).1 := by
  unfold openRestore
  split
  · exact ⟨rfl, .refl s⟩
  · next hheld =>
    refine aside_service (v := s.service) fun _ => ⟨fun hrun => ?_, rfl⟩
    exact absurd (hheld.symm.trans hrun) nofun

theorem aside_clearImage (s : State) : Aside s { s with image := ImageBuffer.clear } :=
  aside_service (v := s.service) fun _ => serviceHolds_clear s _

theorem aside_abandonRestore (s : State) : Aside s (abandonRestore s).1 := by
  unfold abandonRestore
  split_ifs
  · exact aside_clearImage s
  · exact ⟨rfl, .refl s⟩

/-- Another cue table is a step aside where it stays within its places and its targets in range. -/
theorem aside_cues {s : State} {qs : List Cue} (hcount : s.cues.length ≤ 8 → qs.length ≤ 8)
    (htargets : (∀ q ∈ s.cues, q.target < 4294967296) → ∀ q ∈ qs, q.target < 4294967296) :
    Aside s { s with cues := qs } := ⟨rfl, id, id, id, id, hcount, htargets, id⟩

theorem aside_cues_of_sublist {s : State} {qs : List Cue} (h : qs.Sublist s.cues) :
    Aside s { s with cues := qs } :=
  aside_cues (le_trans h.length_le) fun htargets q hq => htargets q (h.subset hq)

theorem dayLength_lt (r : Rate) : dayLength r < 4294967296 := by
  cases r <;> decide

theorem aside_armCue (tag : Byte) (l : Label) (action : CueAction) (s : State) :
    Aside s (armCue tag l action s).1 := by
  unfold armCue
  dsimp only
  split_ifs with _ hvalid hfull
  · exact ⟨rfl, .refl s⟩
  · exact ⟨rfl, .refl s⟩
  · exact ⟨rfl, .refl s⟩
  · exact ⟨rfl, .refl s⟩
  · have hroom : s.cues.length < 8 := Nat.lt_of_not_le hfull
    refine aside_cues (fun _ => by simpa using hroom) fun htargets q hq => ?_
    rcases List.mem_append.mp hq with hq | hq
    · exact htargets q hq
    · obtain rfl := List.mem_singleton.mp hq
      exact (labelOf_frameNumber (by simpa using hvalid)).1.trans (dayLength_lt _)

theorem aside_cueDirective (tag : Byte) (params : List Word) (s : State) :
    Aside s (cueDirective tag params s).1 := by
  unfold cueDirective
  split
  · exact ⟨rfl, .refl s⟩
  · split_ifs
    · exact ⟨rfl, .refl s⟩
    · exact aside_armCue _ _ _ s

theorem aside_uncue (tag : Word) (s : State) : Aside s (uncue tag s).1 := by
  unfold uncue
  split_ifs
  · exact ⟨rfl, .refl s⟩
  · exact aside_cues_of_sublist List.filter_sublist

theorem aside_zeroCounts (s : State) : Aside s (zeroCounts s) := by
  refine aside_settings rfl rfl (fun h => ?_) id
  obtain ⟨hdt, hde, hat, hae, hbt, hbe, hlead, hlow, hhigh, -, hlayout⟩ := h
  exact ⟨hdt, hde, hat, hae, hbt, hbe, hlead, hlow, hhigh, Nat.zero_le _, hlayout⟩

theorem course_flush (lane : Word) (s : State) : Course s₀ s (flush lane s).1 := by
  unfold flush
  split
  · exact .refl
  · exact course_flushLane _ s

theorem course_commitRestore {s : State} (h : Begun s₀ s) :
    Course s₀ s (commitRestore s).1 := by
  unfold commitRestore
  split_ifs with hfill
  · exact .refl
  · split
    · exact .aside (aside_clearImage s)
    · next g hvalid =>
      exact Relation.ReflTransGen.head 
        (.loaded g h.high h.time h.image (not_not.mp hfill) hvalid) (course_admissionRun _)

theorem course_directiveOwner (d : Directive) (tag : Byte) (params : List Word) {s : State}
    (h : Begun s₀ s) : Course s₀ s (directiveOwner d tag params s).1 := by
  cases d with
  | delay => exact .aside (aside_setDelay _ s)
  | lag => exact .aside (aside_setLag _ _ s)
  | lead => exact .aside (aside_setLead _ s)
  | stale => exact .aside (aside_setHorizon _ s)
  | slew => exact .aside (aside_setSlew _ s)
  | layout => exact course_layoutDirective _ _ _ _ s
  | clear => exact .single .cleared
  | handoff => exact course_handoff _ _ s
  | flush => exact course_flush _ s
  | hold => exact .aside (aside_service fun h => ⟨nofun, h.2⟩)
  | resume => exact .aside (aside_resumeService s)
  | snapshot => exact .aside (aside_takeSnapshot s)
  | restoreOpen => exact .aside (aside_openRestore s)
  | restoreCommit => exact course_commitRestore h
  | restoreAbandon => exact .aside (aside_abandonRestore s)
  | cue => exact .aside (aside_cueDirective _ _ s)
  | uncue => exact .aside (aside_uncue _ s)
  | zeroCounts => exact .aside (aside_zeroCounts s)
  | restart => exact .single .restarted

theorem aside_finishDirective (code : BitVec 5) (tag : Byte) (r : State × Result) :
    Aside r.1 (finishDirective code tag r) := by
  have hsettled : Aside r.1 (settleOutcome r.2 r.1) := by
    unfold settleOutcome
    split <;> exact .of_view rfl rfl
  exact hsettled.trans (.of_view rfl rfl)

theorem course_carryOut (d : Directive) (tag : Byte) (params : List Word) {s : State}
    (h : Begun s₀ s) : Course s₀ s (carryOut d tag params s) := by
  refine Relation.ReflTransGen.trans ?_ (Course.aside (aside_finishDirective (codeOf d) tag _))
  unfold judgeDirective
  split_ifs
  · exact course_directiveOwner d tag params h
  · exact .refl

theorem course_directiveRecord (code : BitVec 5) (tag : Byte) (params : List Word) {s : State}
    (h : Begun s₀ s) : Course s₀ s (directiveRecord code tag params s) := by
  unfold directiveRecord
  split
  · exact .aside (aside_finishDirective _ _ (s, _))
  · exact course_carryOut _ tag params h

end Sys2Proof.Moves
end

section
/-! SUPPORT. Lane records, the reference and the accesses to the span as courses of moves, and so every
command. -/

namespace Sys2Proof.Moves

open Sys2Proof.Machine Sys2Proof.Expect Sys2Proof.Safety Sys2Proof.ProgrammeTime
  Sys2Proof.FloorAndHandoff Sys2Proof.Effects Sys2Proof.Directives Sys2Proof.Schedules
  Sys2Proof.FrameEvents Sys2Proof.Records Sys2Proof.Corrections Sys2Proof.Emissions
  Sys2Proof.LaneRecords

variable {s₀ : State}

/-! ### Lane records -/

theorem aside_count (c : Counter) (s : State) : Aside s (count c s) := .of_view rfl rfl

theorem aside_counters (k : Counters) (s : State) : Aside s { s with counters := k } := .of_view rfl rfl

theorem Begun.aside {s t : State} (h : Begun s₀ s) (htime : t.timebase = s.timebase)
    (himage : t.image = s.image) (hline : lineOf t = lineOf s) : Begun s₀ t :=
  ⟨h.high, htime.trans h.time, himage.trans h.image, hline.trans h.line⟩

theorem queue_of_line {s t : State} (h : lineOf t = lineOf s) (x : Lane) :
    (laneOf x t).queue = (laneOf x s).queue := by
  cases x with
  | a => exact congrArg Line.queueA h
  | b => exact congrArg Line.queueB h

theorem course_createToken {s : State} {x : Lane} {kind : TokenKind} {sentEnd attach : Bool}
    {text : List Byte} (hroom : (laneOf x s₀).queue.length ≤ 48 → (laneOf x s).queue.length < 48)
    (htext : ∀ u, textHolds (token x kind sentEnd attach text u) = true)
    (htime : s.timebase.e = s₀.timebase.e) :
    Course s₀ s (createToken x kind sentEnd attach text s) := by
  have hqueued : Course s₀ s (queued (token x kind sentEnd attach text s) s) :=
    .single (.queued x kind sentEnd attach text hroom (htext s) htime)
  rw [createToken_eq]
  dsimp only
  split_ifs
  · exact hqueued.trans (course_admissionRun _)
  · exact hqueued

theorem laneOf_shedHead_queue (x : Lane) (s : State) :
    (laneOf x (shedHead x s)).queue = (laneOf x s).queue.tail := by
  have hcount : ∀ u, (laneOf x (count .standbyShed u)).queue = (laneOf x u).queue := fun u => by
    cases x <;> rfl
  unfold shedHead
  split
  · next h => simp [h]
  · next h => rw [h, hcount, laneOf_notice_queue, setQueue, laneOf_setLane_same, List.tail_cons]

theorem course_tokenRecord {s : State} (h : Begun s₀ s) (x : Lane) {kind : TokenKind}
    (sentEnd attach : Bool) {text : List Byte}
    (htext : ∀ u, textHolds (token x kind sentEnd attach text u) = true) :
    Course s₀ s (tokenRecord x kind sentEnd attach text s) := by
  have hqueue := queue_of_line h.line x
  have htime : s.timebase.e = s₀.timebase.e := by rw [h.time]
  rcases Nat.lt_or_ge (laneOf x s).queue.length 48 with hroom | hfull
  · rw [tokenRecord_of_room hroom]
    exact course_createToken (fun _ => hroom) htext htime
  · by_cases hfloor : floorLane s.floor.state = x
    · rw [tokenRecord_of_full_floor hfull hfloor]
      exact .of_view rfl rfl
    · rw [tokenRecord_of_full_standby hfull hfloor]
      refine Relation.ReflTransGen.head (.shed x) (course_createToken (fun hle => ?_) htext (by simpa))
      rw [laneOf_shedHead_queue, List.length_tail]
      rw [← hqueue] at hle
      omega

theorem textHolds_text {length : BitVec 6} (h : length ≠ 0) (x : Lane) (sentEnd attach : Bool)
    (chars : List Word) (u : State) :
    textHolds (token x .word sentEnd attach (text length chars) u) = true := by
  have hpos : 1 ≤ length.toNat := by
    have : length.toNat ≠ 0 := fun hzero => h (BitVec.eq_of_toNat_eq hzero)
    omega
  have hshown : ∀ c, (accepted (shown c) || shown c == blot) = true := fun c => by
    rw [← substitute_eq_shown, substitute]
    split <;> simp_all
  simp only [textHolds, token, Expect.text, characters, List.length_map, List.length_range,
    List.all_map, Bool.and_eq_true, decide_eq_true_eq, List.all_eq_true]
  exact ⟨⟨by omega, by omega⟩, fun _ _ => hshown _⟩

theorem course_unlessFilling {s : State} {f : State → State} (h : Course s₀ s (f s)) :
    Course s₀ s (unlessFilling f s) := by
  unfold unlessFilling
  split_ifs
  · exact .aside (aside_count _ s)
  · exact h

theorem course_commitWord {s : State} (h : Begun s₀ s) (x : Lane) (sentEnd attach : Bool)
    (length : BitVec 6) (chars : List Word) :
    Course s₀ s (commitWord x sentEnd attach length chars s) := by
  unfold commitWord
  split_ifs with hempty
  · exact .aside (aside_count _ s)
  · refine course_unlessFilling ?_
    rw [makeWord_eq]
    have hbegun : Begun s₀ { s with counters := textCounters length chars s.counters } :=
      h.aside rfl rfl rfl
    exact (Course.aside (aside_counters _ s)).trans
      (course_tokenRecord hbegun x sentEnd attach (textHolds_text hempty x _ _ chars))

theorem course_commitPlain {s : State} (h : Begun s₀ s) (x : Lane) {kind : TokenKind}
    (hkind : kind ≠ .word) (sentEnd attach : Bool) :
    Course s₀ s (commitPlain x kind sentEnd attach s) := by
  refine course_unlessFilling (course_tokenRecord h x sentEnd attach fun u => ?_)
  cases kind with
  | word => exact absurd rfl hkind
  | speaker | paragraph => rfl

/-! ### Corrections -/

theorem course_popAction {s : State} {x : Lane} {en : StackEntry} {rest : List StackEntry}
    (hstack : (laneOf x s).stack = en :: rest) :
    Course s₀ s (popAction x en (setStack x rest s)) := by
  have hforgotten : Course s₀ s (setStack x rest s) := .single (.forgotten x en rest hstack)
  have hlate : Course s₀ s (lateCorrection (setStack x rest s)) :=
    hforgotten.tail (.aside (aside_count _ _))
  have hrow (htag : en.tag = .composed ∨ en.tag = .sending ∨ en.tag = .shown) :
      Course s₀ s (popComposed en.id (setStack x rest s)) := by
    have hcomposer : (setStack x rest s).composer = s.composer := by simp
    unfold popComposed
    split
    · exact hlate
    · next sp hlast =>
      obtain ⟨left, hspans⟩ := List.getLast?_eq_some_iff.mp hlast
      split_ifs with hid
      · exact .single (.undone x en rest left sp hstack htag (by rw [← hcomposer, hspans]) hid)
      · exact hlate
  cases htag : en.tag with
  | waiting =>
    simp only [popAction, htag]
    have hqueue : (laneOf x (setStack x rest s)).queue = (laneOf x s).queue := by cases x <;> rfl
    rw [hqueue]
    exact .single (.recalled x en rest hstack htag)
  | pending =>
    simp only [popAction, htag]
    have hschedule : (setStack x rest s).schedule = s.schedule := by simp
    rw [hschedule]
    exact Relation.ReflTransGen.head (.unscheduled x en rest hstack htag) (course_admissionRun _)
  | composed =>
    simp only [popAction, htag]
    exact hrow (.inl htag)
  | sending =>
    simp only [popAction, htag]
    exact hrow (.inr (.inl htag))
  | shown =>
    simp only [popAction, htag]
    exact hrow (.inr (.inr htag))
  | closed =>
    simp only [popAction, htag]
    exact hlate
  | dropped =>
    simp only [popAction, htag]
    exact hforgotten

theorem course_correctLane (x : Lane) (n : Nat) (s : State) : Course s₀ s (correctLane x n s) := by
  induction n generalizing s with
  | zero => exact .refl
  | succ n ih =>
    cases hstack : (laneOf x s).stack with
    | nil =>
      rw [correctLane_of_nil hstack]
      exact .aside (aside_counters _ s)
    | cons en rest =>
      rw [correctLane_of_cons hstack]
      exact (course_popAction hstack).trans (ih _)

theorem course_commitCorrect (x : Lane) (n : BitVec 6) (s : State) :
    Course s₀ s (commitCorrect x n s) := by
  unfold commitCorrect
  split_ifs
  · exact .aside (aside_count _ s)
  · exact course_unlessFilling (course_correctLane x _ s)

theorem course_commitRecord {s : State} (h : Begun s₀ s) (r : Ring) (header : Word)
    (body : List Word) : Course s₀ s (commitRecord r header body s) := by
  cases r with
  | directive => exact course_directiveRecord _ _ _ h
  | lane x =>
    unfold commitRecord commitLane
    dsimp only
    split
    · exact course_commitWord h x _ _ _ _
    · exact course_commitPlain h x (by decide) _ _
    · exact course_commitPlain h x (by decide) _ _
    · exact course_commitCorrect x _ s
    · exact .aside (aside_count _ s)

/-! ### The reference -/

theorem course_actionOwner (a : CueAction) (s : State) : Course s₀ s (actionOwner a s).1 := by
  cases a with
  | hold => exact .aside (aside_service fun h => ⟨nofun, h.2⟩)
  | resume => exact .aside (aside_resumeService s)
  | clear => exact .single .cleared
  | handoff lane wait => exact course_handoff lane wait s
  | delay d => exact .aside (aside_setDelay d s)

theorem course_fireOldest (s : State) : Course s₀ s (fireOldest s) := by
  have hsettled : ∀ r u, Aside u (settleAction r u) := fun r u => by
    unfold settleAction
    split <;> exact .of_view rfl rfl
  unfold fireOldest
  split
  · exact .refl
  · have hretired : Course s₀ s { s with cues := s.cues.eraseP (cueDue s.timebase) } :=
      .aside (aside_cues_of_sublist List.eraseP_sublist)
    refine (hretired.tail (.aside (aside_count .cuesFired _))).trans ?_
    exact (course_actionOwner _ _).tail (.aside (hsettled _ _))

theorem course_fireUpTo (n : Nat) (s : State) : Course s₀ s (fireUpTo n s) := by
  induction n generalizing s with
  | zero => exact .refl
  | succ n ih => exact (course_fireOldest s).trans (ih _)

theorem stepToward_le {target eff top : Nat} (ht : target ≤ top) (he : eff ≤ top) :
    stepToward target eff ≤ top := by
  unfold stepToward
  split_ifs <;> omega

theorem aside_slewTick (s : State) : Aside s (slewTick s) := by
  refine aside_settings rfl rfl (fun h => ?_) fun h => ?_
  · obtain ⟨hdt, hde, hat, hae, hbt, hbe, hrest⟩ := h
    exact ⟨hdt, stepToward_le hdt hde, hat, stepToward_le hat hae, hbt, stepToward_le hbt hbe, hrest⟩
  · obtain ⟨-, hrest⟩ := h
    exact ⟨slewPeriod_pos _, hrest⟩

theorem aside_slewStep (s : State) : Aside s (slewStep s) := by
  unfold slewStep
  split_ifs with hwraps
  · exact aside_slewTick s
  · refine aside_settings rfl rfl id fun h => ?_
    obtain ⟨-, hrest⟩ := h
    refine ⟨?_, hrest⟩
    simpa [tickerWraps] using hwraps

theorem course_react (o : FrameOrder) (s : State) : Course s₀ s (react o s) := by
  have hfire : ∀ n {u}, Course s₀ s u → Course s₀ s (fireSome n u) := fun n _ hu =>
    hu.trans (course_fireUpTo _ _)
  have htimer : ∀ {u}, Course s₀ s u → Course s₀ s (passTimerStep u) := fun hu => by
    rw [passTimerStep_eq_timed]
    exact hu.trans (course_timed _)
  have hslew : ∀ {u}, Course s₀ s u → Course s₀ s (slewStep u) := fun hu =>
    hu.tail (.aside (aside_slewStep _))
  have hrelease : ∀ {u}, Course s₀ s u → Course s₀ s (releasePass u) := fun hu =>
    hu.trans (course_releasePass _)
  have hstart : Course s₀ s s := .refl
  unfold react reactionsOf
  dsimp only
  refine Relation.ReflTransGen.trans ?_ (course_fireUpTo _ _)
  cases o.timer with
  | beforeSlew => exact hrelease (hfire _ (hslew (hfire _ (htimer (hfire _ hstart)))))
  | beforeRelease => exact hrelease (hfire _ (htimer (hfire _ (hslew (hfire _ hstart)))))
  | afterRelease => exact htimer (hfire _ (hrelease (hfire _ (hslew (hfire _ hstart)))))

theorem dayLength_pos (r : Rate) : 0 < dayLength r := by
  cases r <;> decide

/-- N stays of the day at every frame (R10 to R12). -/
theorem timecode_lt {r : Rate} {tb : Timebase} (h : tb.n < dayLength r) :
    (Expect.timecode r tb).2.1 < dayLength r := by
  have hnext : (tb.n + 1) % dayLength r < dayLength r := Nat.mod_lt _ (dayLength_pos r)
  have hheld : (if tb.known then (tb.n + 1) % dayLength r else tb.n) < dayLength r := by
    split_ifs <;> assumption
  unfold Expect.timecode
  dsimp only
  generalize (if tb.known then (tb.n + 1) % dayLength r else tb.n) = n at hheld
  split
  · exact hheld
  · split_ifs with hvalid
    · exact hheld
    · exact (labelOf_frameNumber (by simpa using hvalid)).1
    · exact h
    · exact (labelOf_frameNumber (by simpa using hvalid)).1

/-- A timebase that has left ABSENT keeps its moments whatever frame opens. -/
theorem momentsHold_of_present {tb u : Timebase} (hpresent : tb.state ≠ .absent)
    (hstate : u.state = tb.state) (hdeadline : u.deadline = tb.deadline)
    (hpulse : u.nextPulse = tb.nextPulse) (hlast : u.lastInternal = tb.lastInternal)
    (h : momentsHold tb = true) : momentsHold u = true := by
  unfold momentsHold at h ⊢
  rw [hstate, hdeadline, hpulse, hlast]
  cases hs : tb.state <;> simp_all

theorem aside_opened (closes : Bool) {s : State} (hpresent : s.timebase.state ≠ .absent) :
    Aside s (opened closes s) := by
  have hsublist : ((opened closes s).cues).Sublist s.cues := List.filter_sublist
  refine ⟨rfl, id, fun h => ?_, id, id, le_trans hsublist.length_le,
    fun htargets q hq => htargets q (hsublist.subset hq), id⟩
  obtain ⟨hticker, hn, hmoments⟩ := h
  exact ⟨hticker, timecode_lt hn, momentsHold_of_present hpresent rfl rfl rfl rfl hmoments⟩

theorem course_frameEvent (o : FrameOrder) (closes : Bool) {s : State}
    (hpresent : s.timebase.state ≠ .absent) : Course s₀ s (frameEvent o closes s) := by
  rw [frameEvent, openFrame_eq]
  exact Relation.ReflTransGen.head (.aside (aside_opened closes hpresent)) (course_react o _)

/-- New moments are a step aside where they agree with the state of the timebase. -/
theorem aside_moments {s t : State} (hline : lineOf t = lineOf s)
    (hview : rangeView { t with timebase := s.timebase } = rangeView s)
    (hticker : t.timebase.ticker = s.timebase.ticker) (hn : t.timebase.n = s.timebase.n)
    (hmoments : momentsHold s.timebase = true → momentsHold t.timebase = true) : Aside s t := by
  have hranges := Ranges.of_view hview
  refine ⟨hline, hranges.settings, fun h => ?_, hranges.floor, hranges.service, hranges.cueCount,
    hranges.cueTargets, hranges.sram⟩
  obtain ⟨hlow, hday, hm⟩ := hranges.timebase h
  exact ⟨by rw [hticker]; exact hlow, by rw [hn]; exact hday, hmoments h.2.2⟩

theorem course_reference {c : Instr} {s t : State} (h : exec c s = .next t)
    (href : ofReference c = true) : Course s₀ s t := by
  refine reference_keeps (P := Course s₀ s) h href .refl
    (fun u o closes hpresent hu => hu.trans (course_frameEvent o closes hpresent))
    (fun u m hu => hu.tail (.aside (aside_moments rfl rfl rfl rfl fun _ => rfl)))
    (fun u m hu => hu.tail (.aside (aside_moments rfl rfl rfl rfl fun _ => rfl)))
    (fun u m hstate hu => hu.tail (.aside (aside_moments rfl rfl rfl rfl fun hm => ?_)))
  simp only [momentsHold, hstate, Bool.and_eq_true, pulseAt, Option.isSome_some] at hm ⊢
  exact ⟨⟨hm.1.1, trivial⟩, trivial⟩

/-! ### Accesses -/

theorem course_takeCells (n : Nat) (s : State) : Course s₀ s (takeCells n s) := by
  induction n generalizing s with
  | zero => exact .refl
  | succ n ih =>
    cases hcells : s.composer.cells with
    | nil =>
      rw [takeCells_of_nil hcells]
    | cons c rest =>
      have hone : takeCells (n + 1) s = takeCells n (takeCells 1 s) := by
        simp only [takeCells, hcells]
      rw [hone]
      exact Relation.ReflTransGen.head (.taken c rest hcells) (ih _)

theorem course_takeBlock (s : State) : Course s₀ s (takeBlock s) := by
  rw [takeBlock_eq]
  exact (course_takeCells _ s).tail (.aside (.of_view rfl rfl))

theorem course_emissionRead (q : Requester) (i : BitVec 3) (s : State) :
    Course s₀ s (emissionRead q i s) := by
  unfold emissionRead
  split
  · exact .refl
  · split_ifs
    · exact .refl
    · exact .aside (aside_count _ s)
    · exact course_takeBlock s

theorem aside_contextAdvance (s : State) : Aside s { s with image := contextAdvance s.image } := by
  refine aside_service (v := s.service) fun h => ?_
  obtain ⟨hrun, hbuffer⟩ := h
  have hstate : (contextAdvance s.image).state = s.image.state := by
    unfold contextAdvance
    split <;> rfl
  refine ⟨fun hservice => hstate.trans (hrun hservice), ?_⟩
  show bufferHolds (contextAdvance s.image) = true
  unfold contextAdvance
  split
  · next hs =>
    simp only [bufferHolds, hs, Bool.and_eq_true, decide_eq_true_eq] at hbuffer ⊢
    refine ⟨?_, hbuffer.2⟩
    split <;> omega
  · exact hbuffer
  · exact hbuffer

theorem course_busRead (q : Requester) (ma : BitVec 20) (s : State) :
    Course s₀ s (busRead q ma s) := by
  have hreport : ∀ n, Aside s (reportRead n s) := fun n => by
    unfold reportRead
    split <;> exact .of_view rfl rfl
  have hanswer : ∀ w u, Aside u (answer w u) := fun w u => .of_view rfl rfl
  unfold busRead
  split
  · exact .aside (hanswer _ s)
  · exact (course_emissionRead _ _ s).tail (.aside (hanswer _ _))
  · exact .aside ((hreport _).trans (hanswer _ _))
  · exact .aside (hanswer _ s)
  · exact .aside ((aside_contextAdvance s).trans (hanswer _ _))
  · exact .of_view rfl rfl

theorem aside_setParser (r : Ring) (p : Parser) (s : State) : Aside s (setParser r p s) := by
  rcases r with (_ | _) | _ <;> exact .of_view rfl rfl

theorem aside_stallCheck (r : Ring) (s : State) : Aside s (stallCheck r s) := by
  have hidle := aside_setParser r { parserOf r s with staging := none } s
  unfold stallCheck
  split_ifs
  · generalize setParser r { parserOf r s with staging := none } s = u at hidle
    exact hidle.trans (.of_view rfl rfl)
  · exact ⟨rfl, .refl s⟩

theorem Begun.setParser {s : State} (h : Begun s₀ s) (r : Ring) (p : Parser) :
    Begun s₀ (setParser r p s) := by
  rcases r with (_ | _) | _ <;> exact h.aside rfl rfl rfl

/-- A record commits once its ring's parser is idle again. -/
theorem course_commit {s : State} (h : Begun s₀ s) (r : Ring) (p : Parser) (header : Word)
    (body : List Word) : Course s₀ s (commitRecord r header body (setParser r p s)) :=
  (Course.aside (aside_setParser r p s)).trans (course_commitRecord (h.setParser r p) r header body)

theorem course_takeHeader {s : State} (h : Begun s₀ s) (r : Ring) (off : Nat) (w : Word) :
    Course s₀ s (takeHeader r off w s) := by
  unfold takeHeader
  dsimp only
  split_ifs
  · exact course_commit h r _ w []
  · exact .aside (aside_setParser r _ s)

theorem course_discontinuity {s : State} (h : Begun s₀ s) (r : Ring) (off : Nat) (w : Word) :
    Course s₀ s (discontinuity r off w s) := by
  unfold discontinuity
  dsimp only
  have hidle := h.setParser r { parserOf r s with staging := none }
  have hparser := aside_setParser r { parserOf r s with staging := none } s
  generalize setParser r { parserOf r s with staging := none } s = u at hidle hparser
  have hcounted : Aside u (raise .ringDiscontinuity (count .discontinuities u)) := .of_view rfl rfl
  have hbegun : Begun s₀ (raise .ringDiscontinuity (count .discontinuities u)) :=
    hidle.aside rfl rfl rfl
  exact (Course.aside (hparser.trans hcounted)).trans (course_takeHeader hbegun r off w)

theorem course_followWrite {s : State} (h : Begun s₀ s) (r : Ring) (off : Nat) (w : Word) :
    Course s₀ s (followWrite r off w s) := by
  unfold followWrite
  dsimp only
  split_ifs
  · exact course_discontinuity h r off w
  · split
    · exact course_takeHeader h r off w
    · unfold takeBody
      dsimp only
      split_ifs
      · exact course_commit h r _ _ _
      · exact .aside (aside_setParser r _ s)

theorem aside_collectWord (w : Word) (s : State) :
    Aside s { s with image := collectWord w s.image } := by
  refine aside_service (v := s.service) fun h => ?_
  obtain ⟨hrun, hbuffer⟩ := h
  have hstate : (collectWord w s.image).state = s.image.state := by
    unfold collectWord
    split
    · split_ifs <;> rfl
    · rfl
    · rfl
  refine ⟨fun hservice => hstate.trans (hrun hservice), ?_⟩
  show bufferHolds (collectWord w s.image) = true
  unfold collectWord
  split
  · next hs =>
    split_ifs with hfull
    · simpa [bufferHolds, hs] using hbuffer
    · simp only [bufferHolds, hs, Bool.and_eq_true, decide_eq_true_eq, List.length_append,
        List.length_singleton] at hbuffer ⊢
      exact ⟨hbuffer.1, by omega⟩
  · exact hbuffer
  · exact hbuffer

theorem aside_passWrite (ma : BitVec 20) (w : Word) (s : State) : Aside s (passWrite ma w s) :=
  ⟨rfl, id, id, id, id, id, id, fun h => Memory.wf_write h ma.toNat w⟩

theorem course_busWrite (q : Requester) (ma : BitVec 20) (w : Word) (s : State) :
    Course s (s) (busWrite q ma w s) := by
  have hpassed := aside_passWrite ma w s
  cases hlow : s.resetLow with
  | true =>
    rw [Accesses.busWrite_plain q w (Accesses.windowOf_of_resetLow hlow ma)]
    exact .aside hpassed
  | false =>
    have hbegun : Begun s (passWrite ma w s) := ⟨hlow, rfl, rfl, rfl⟩
    unfold busWrite
    dsimp only
    split
    · exact (Course.aside hpassed).trans (course_followWrite hbegun _ _ w)
    · exact (Course.aside hpassed).tail (.aside (aside_collectWord w _))
    · exact .aside hpassed

/-! ### Commands -/

theorem course_whileReleased {f : State → State} {s : State}
    (h : s.resetLow = false → Course s s (f s)) : Course s s (whileReleased f s) := by
  unfold whileReleased
  split_ifs with hlow
  · exact .refl
  · exact h (by simpa using hlow)

theorem course_outsideAbsent {f : State → State} {s : State} (h : Course s₀ s (f s)) :
    Course s₀ s (outsideAbsent f s) := by
  unfold outsideAbsent
  split_ifs
  · exact .refl
  · exact h

/-- Every command is a course of moves. -/
theorem course_exec {c : Instr} {s t : State} (h : exec c s = .next t) : Course s s t := by
  have hbegun (hlow : s.resetLow = false) : Begun s s := ⟨hlow, rfl, rfl, rfl⟩
  cases c with
  | resetAssert =>
    obtain rfl := eq_of_done h
    exact .aside (aside_moments rfl rfl rfl rfl id)
  | resetRelease span rate =>
    obtain rfl := eq_of_done h
    exact .single (.reset span rate)
  | fpEdge | freewheelDeadline | nextPulse => exact course_reference h rfl
  | timecodeWord bits falls =>
    obtain rfl := eq_of_done h
    refine course_whileReleased fun _ => .aside (aside_moments rfl rfl ?_ ?_ fun hm => ?_)
    all_goals
      simp only [receiveBits, endFraming]
      split_ifs <;> first | rfl | exact hm
  | slewTick =>
    obtain rfl := eq_of_done h
    refine course_whileReleased fun _ => course_outsideAbsent ?_
    split_ifs
    · exact .aside (aside_slewTick s)
    · exact .refl
  | recordStall r =>
    obtain rfl := eq_of_done h
    exact course_whileReleased fun _ => course_outsideAbsent (.aside (aside_stallCheck r s))
  | passTimerExpiry =>
    obtain rfl := eq_of_done h
    refine course_whileReleased fun _ => course_outsideAbsent ?_
    rw [passTimerStep_eq_timed]
    split_ifs
    · exact course_timed s
    · exact .refl
  | cueFire =>
    obtain rfl := eq_of_done h
    exact course_whileReleased fun _ => course_outsideAbsent (course_fireOldest s)
  | wordRecord x sentEnd attach length chars =>
    obtain rfl := eq_of_done h
    exact course_whileReleased fun hlow => course_commitWord (hbegun hlow) x _ _ _ _
  | speakerRecord x =>
    obtain rfl := eq_of_done h
    exact course_whileReleased fun hlow => course_commitPlain (hbegun hlow) x (by decide) _ _
  | breakRecord x =>
    obtain rfl := eq_of_done h
    exact course_whileReleased fun hlow => course_commitPlain (hbegun hlow) x (by decide) _ _
  | unknownKind =>
    obtain rfl := eq_of_done h
    exact course_whileReleased fun _ => .aside (aside_count _ s)
  | correct x n =>
    obtain rfl := eq_of_done h
    exact course_whileReleased fun _ => course_commitCorrect x n s
  | ringWrite ma w =>
    obtain rfl := eq_of_done h
    exact course_busWrite _ ma w s
  | passedWrite q ma w =>
    obtain rfl := eq_of_done h
    exact course_busWrite q ma w s
  | restorePortWrite q w =>
    obtain rfl := eq_of_done h
    exact course_busWrite q _ w s
  | take q | reread q | attentionSummaryRead q | latchedLowRead q | contextPortRead q =>
    obtain rfl := eq_of_done h
    exact course_busRead q _ s
  | unknownDirective code tag params =>
    obtain rfl := eq_of_done h
    exact course_whileReleased fun hlow => course_directiveRecord code tag params (hbegun hlow)
  | delay tag params | lag tag params | lead tag params | stale tag params | slew tag params
  | layout tag params | clear tag params | handoff tag params | flush tag params | hold tag params
  | resume tag params | snapshot tag params | restoreOpen tag params | restoreAbandon tag params
  | restoreCommit tag params | cue tag params | uncue tag params | zeroCounts tag params
  | restart tag params =>
    obtain rfl := eq_of_done h
    exact course_whileReleased fun hlow => course_carryOut _ tag params (hbegun hlow)

/-- What every move keeps, every step keeps. -/
theorem step_keeps {P : State → Prop} {s t : State} (h : step s = .next t) (hs : P s)
    (hpending : ∀ u q, P u → P { u with pending := q })
    (hmove : ∀ s₀ u v, P s₀ → Course s₀ s₀ u → P u → Move s₀ u v → P v) : P t := by
  unfold step at h
  split at h
  · cases h
    exact hs
  · next c rest _ =>
    have hstart := hpending s rest hs
    have hcourse := course_exec h
    clear h
    induction hcourse with
    | refl => exact hstart
    | tail hu huv ih => exact hmove _ _ _ hstart hu ih huv

end Sys2Proof.Moves
end

section
/-! SUPPORT. Images as read (10_hold_snapshot_and_restore.md, 10.4): each reader takes exactly the words
of one record, and the sections are read where the image is divided. -/

namespace Sys2Proof.Images

open Sys2Proof.Machine Sys2Proof.Expect Sys2Proof.ProgrammeTime Sys2Proof.Accesses
  Sys2Proof.Records

/-! ### Fields -/

theorem field_eq (w : Word) (low len : Nat) : field w low len = w.toNat / 2 ^ low % 2 ^ len := by
  simp [field, BitVec.extractLsb'_toNat, Nat.shiftRight_eq_div_pow]

theorem laneKind_toNat (w : Word) : (laneKind w).toNat = w.toNat / 4096 := by
  have := w.isLt
  simp only [laneKind, BitVec.extractLsb'_toNat, Nat.shiftRight_eq_div_pow]
  omega

theorem idOfWord_eq (w : Word) : idOfWord w = idNamed w := by
  have hbit : w.getLsbD 12 = decide (w.toNat / 4096 % 2 = 1) := by
    simp [BitVec.getLsbD, Nat.testBit_eq_decide_div_mod_eq]
  have hserial : w.extractLsb' 0 12 = BitVec.ofNat 12 (w.toNat % 4096) := by
    apply BitVec.eq_of_toNat_eq
    simp
  rw [idOfWord, idNamed, hbit, hserial]
  by_cases h : w.toNat / 4096 % 2 = 0 <;> simp [h]

/-- Two words name one identity where their names agree. -/
theorem idNamed_inj {w v : Word} : idNamed w = idNamed v ↔ nameOf w = nameOf v := by
  have hserial : ∀ u : Word, (BitVec.ofNat 12 (u.toNat % 4096)).toNat = u.toNat % 4096 := fun u => by
    simp
  simp only [idNamed, nameOf, TokenId.mk.injEq, ← BitVec.toNat_inj, hserial]
  rcases Nat.mod_two_eq_zero_or_one (w.toNat / 4096) with hw | hw <;>
    rcases Nat.mod_two_eq_zero_or_one (v.toNat / 4096) with hv | hv <;> simp [hw, hv] <;> omega

theorem idNamed_lane (w : Word) : (idNamed w).lane = .a ↔ nameOf w < 4096 := by
  simp only [idNamed, nameOf]
  split <;> simp <;> omega

/-! ### Readers -/

/-- A reader takes the words of one record, of those that are well formed, and answers its value. -/
def Reads {α ρ : Type} (read : List Word → Option (α × List Word)) (ok : ρ → Prop)
    (words : ρ → List Word) (value : ρ → α) : Prop :=
  ∀ ws x rest, read ws = some (x, rest) ↔ ∃ r, ok r ∧ ws = words r ++ rest ∧ x = value r

theorem Reads.many {α ρ : Type} {read : List Word → Option (α × List Word)} {ok : ρ → Prop}
    {words : ρ → List Word} {value : ρ → α} (h : Reads read ok words value) (n : Nat) :
    Reads (readMany read n) (fun rs : List ρ => rs.length = n ∧ ∀ r ∈ rs, ok r)
      (fun rs => rs.flatMap words) (fun rs => rs.map value) := by
  intro ws xs rest
  dsimp only
  induction n generalizing ws xs with
  | zero =>
    rw [readMany, Option.some.injEq, Prod.mk.injEq]
    constructor
    · rintro ⟨rfl, rfl⟩
      exact ⟨[], ⟨rfl, nofun⟩, rfl, rfl⟩
    · rintro ⟨rs, ⟨hlen, -⟩, hws, hxs⟩
      obtain rfl := List.length_eq_zero_iff.mp hlen
      exact ⟨hxs.symm, hws⟩
  | succ n ih =>
    constructor
    · intro hread
      rw [readMany] at hread
      split at hread
      · cases hread
      · next x tail hx =>
        split at hread
        · cases hread
        · next ys rest' hys =>
          cases hread
          obtain ⟨r, hr, rfl, rfl⟩ := (h _ _ _).mp hx
          obtain ⟨rs, ⟨hlen, hrs⟩, rfl, rfl⟩ := (ih _ _).mp hys
          refine ⟨r :: rs, ⟨by simp [hlen], List.forall_mem_cons.mpr ⟨hr, hrs⟩⟩, ?_, rfl⟩
          rw [List.flatMap_cons, List.append_assoc]
    · rintro ⟨rs, ⟨hlen, hrs⟩, rfl, rfl⟩
      obtain ⟨r, rs, rfl⟩ := List.exists_cons_of_length_eq_add_one hlen
      obtain ⟨hr, hrs⟩ := List.forall_mem_cons.mp hrs
      have hx := (h (words r ++ (rs.flatMap words ++ rest)) _ _).mpr ⟨r, hr, rfl, rfl⟩
      have hys := (ih (rs.flatMap words ++ rest) _).mpr ⟨rs, ⟨by simpa using hlen, hrs⟩, rfl, rfl⟩
      rw [List.flatMap_cons, List.append_assoc]
      simp only [readMany, hx, hys, List.map_cons]

/-- The words of a token record are as many as its length field asks. -/
def recordFits (r : List Word) : Prop := r.length = 6 + (numberAt r 0 % 64 + 1) / 2

/-- The kind and length of a token record go together. -/
def recordNames (r : List Word) : Prop :=
  (numberAt r 0 / 4096 = 1 ∧ 1 ≤ numberAt r 0 % 64 ∧ numberAt r 0 % 64 ≤ 32) ∨
    ((numberAt r 0 / 4096 = 2 ∨ numberAt r 0 / 4096 = 3) ∧ numberAt r 0 % 64 = 0)

/-- The token of a record. -/
def tokenNamed (r : List Word) : Token :=
  { id := idNamed (r.getD 1 0)
    kind := (kindOfCode (laneKind (r.getD 0 0))).getD .word
    sentEnd := laneSentEnd (r.getD 0 0), attach := laneAttach (r.getD 0 0)
    text := Expect.text (BitVec.ofNat 6 (numberAt r 0 % 64)) (r.drop 6)
    speech := frameOfWords (r.getD 2 0) (r.getD 3 0)
    arrival := frameOfWords (r.getD 4 0) (r.getD 5 0) }

/-- The kinds and lengths that a reader accepts. -/
theorem kindOfCode_names (w : Word) (len : Nat) :
    ((∃ kind, kindOfCode (laneKind w) = some kind ∧ tokenLengthOk kind len = true) ↔
      (w.toNat / 4096 = 1 ∧ 1 ≤ len ∧ len ≤ 32) ∨
        ((w.toNat / 4096 = 2 ∨ w.toNat / 4096 = 3) ∧ len = 0)) := by
  have hkind : ∀ n : BitVec 4, laneKind w = n ↔ w.toNat / 4096 = n.toNat := fun n => by
    rw [← laneKind_toNat, BitVec.toNat_inj]
  simp only [kindOfCode, hkind]
  by_cases h1 : w.toNat / 4096 = 1
  · simp [h1, tokenLengthOk]
  · by_cases h2 : w.toNat / 4096 = 2
    · simp [h2, tokenLengthOk]
    · by_cases h3 : w.toNat / 4096 = 3 <;> simp [h1, h2, h3, tokenLengthOk]

/-- A record's text, its characters shown. -/
theorem text_of_le {n : Nat} (h : n ≤ 32) (ws : List Word) :
    Expect.text (BitVec.ofNat 6 n) ws = (charsOf ws n).map substitute := by
  have hn : min (BitVec.ofNat 6 n).toNat 32 = n := by
    rw [BitVec.toNat_ofNat]
    omega
  rw [Expect.text, hn, charsOf_eq, substitute_eq_shown]

theorem reads_token :
    Reads readToken (fun r => recordFits r ∧ recordNames r) id tokenNamed := by
  intro ws t rest
  have hfield : ∀ w : Word, field w 0 6 = w.toNat % 64 := fun w => by simp [field_eq]
  constructor
  · intro h
    unfold readToken at h
    split at h
    · next w i s0 s1 a0 a1 tail =>
      dsimp only at h
      rw [hfield] at h
      split at h
      · cases h
      · next kind hkind =>
        split at h
        · next hok =>
          rw [Bool.and_eq_true, decide_eq_true_eq] at hok
          obtain ⟨hlenOk, hroom⟩ := hok
          cases h
          have hnames := (kindOfCode_names w _).mp ⟨kind, hkind, hlenOk⟩
          refine ⟨w :: i :: s0 :: s1 :: a0 :: a1 :: tail.take ((w.toNat % 64 + 1) / 2), ⟨?_, hnames⟩,
            by simp, ?_⟩
          · simp only [recordFits, numberAt, List.length_cons, List.length_take,
              min_eq_left hroom, List.getD_cons_zero]
            omega
          · have hle : w.toNat % 64 ≤ 32 := by omega
            simp [tokenNamed, hkind, numberAt, text_of_le hle, idOfWord_eq]
        · cases h
    · cases h
  · rintro ⟨r, ⟨hfits, hnames⟩, rfl, rfl⟩
    have hlong : 6 ≤ r.length := by
      rw [recordFits] at hfits
      omega
    obtain ⟨w, i, s0, s1, a0, a1, tail, rfl⟩ : ∃ w i s0 s1 a0 a1 tail,
        r = w :: i :: s0 :: s1 :: a0 :: a1 :: tail := by
      match r, hlong with
      | w :: i :: s0 :: s1 :: a0 :: a1 :: tail, _ => exact ⟨w, i, s0, s1, a0, a1, tail, rfl⟩
    have htail : tail.length = (w.toNat % 64 + 1) / 2 := by
      simp only [recordFits, numberAt, List.length_cons, List.getD_cons_zero] at hfits
      omega
    obtain ⟨kind, hkind, hlenOk⟩ := (kindOfCode_names w (w.toNat % 64)).mpr hnames
    have hle : w.toNat % 64 ≤ 32 := by
      simp only [recordNames, numberAt, List.getD_cons_zero] at hnames
      omega
    simp [readToken, hfield, hkind, hlenOk, ← htail, tokenNamed, numberAt, text_of_le hle, idOfWord_eq]

/-! ### Cells -/

/-- A word is a cell's word where its number is the cell's. -/
theorem eq_cellWord_iff {w : Word} {c : Cell} (hc : cellNumber c < 65536) :
    w = cellWord c ↔ w.toNat = cellNumber c := by
  rw [cellWord_eq, ← BitVec.toNat_inj, BitVec.toNat_ofNat, Nat.mod_eq_of_lt hc]

/-- A word whose kind is none of the seven names no cell. -/
theorem cellNamed_of_noKind {w : Word} (h : w.toNat / 4096 = 0 ∨ 7 < w.toNat / 4096) :
    cellNamed w = none := by
  unfold cellNamed
  split
  case h_8 => rfl
  all_goals omega

theorem cellOfWord_eq (w : Word) : cellOfWord w = cellNamed w := by
  have hw := w.isLt
  have hkind : field w 12 4 = w.toNat / 4096 := by rw [field_eq]; omega
  have hsix : field w 0 6 = w.toNat % 64 := by simp [field_eq]
  have hbase : field w 4 4 = w.toNat / 16 % 16 := field_eq w 4 4
  have hdepth : field w 0 3 = w.toNat % 8 := by simp [field_eq]
  have hleft : field w 6 5 = w.toNat / 64 % 32 := field_eq w 6 5
  have hchar : field w 8 4 = w.toNat / 256 % 16 := field_eq w 8 4
  have hlow : lowByte w = BitVec.ofNat 8 (w.toNat % 4096) := by
    apply BitVec.eq_of_toNat_eq
    simp only [lowByte, BitVec.extractLsb'_toNat, Nat.shiftRight_zero, BitVec.toNat_ofNat]
    omega
  have hplain : ∀ k : Word, w = k ↔ w.toNat = k.toNat := fun k => BitVec.toNat_inj.symm
  have hcases : w.toNat / 4096 = 1 ∨ w.toNat / 4096 = 2 ∨ w.toNat / 4096 = 3 ∨ w.toNat / 4096 = 4 ∨
      w.toNat / 4096 = 5 ∨ w.toNat / 4096 = 6 ∨ w.toNat / 4096 = 7 ∨
      (w.toNat / 4096 = 0 ∨ 7 < w.toNat / 4096) := by omega
  rcases hcases with h | h | h | h | h | h | h | hnone
  · have hiff : w.toNat / 256 % 16 = 0 ↔ w.toNat % 4096 < 256 := by omega
    simp only [cellOfWord, cellNamed, hkind, h, hchar, hiff, hlow, substitute_eq_shown]
  · have hiff : w = 0x2000 ↔ w.toNat % 4096 = 0 := by rw [hplain]; simp; omega
    simp only [cellOfWord, cellNamed, hkind, h, hiff]
  · have hiff : w = 0x3000 ↔ w.toNat % 4096 = 0 := by rw [hplain]; simp; omega
    simp only [cellOfWord, cellNamed, hkind, h, hiff]
  · have hiff : (1 ≤ w.toNat % 64 ∧ w.toNat % 64 ≤ 40 ∧ w = cellWord (.erase (w.toNat % 64))) ↔
        1 ≤ w.toNat % 4096 ∧ w.toNat % 4096 ≤ 40 := by
      rw [eq_cellWord_iff (by simp only [cellNumber]; omega)]
      simp only [cellNumber]
      omega
    simp only [cellOfWord, cellNamed, hkind, h, eraseOfWord, hsix, hiff]
    split_ifs with hk
    · have heq : w.toNat % 64 = w.toNat % 4096 := by omega
      rw [heq]
    · rfl
  · have hiff : w = 0x5000 ↔ w.toNat % 4096 = 0 := by rw [hplain]; simp; omega
    simp only [cellOfWord, cellNamed, hkind, h, hiff]
  · have hiff : (1 ≤ w.toNat / 16 % 16 ∧ 2 ≤ w.toNat % 8 ∧ w.toNat % 8 ≤ 4 ∧
        w = cellWord (.placeRow (w.toNat / 16 % 16) (w.toNat % 8))) ↔
        w.toNat % 4096 < 256 ∧ 1 ≤ w.toNat % 4096 / 16 ∧ 2 ≤ w.toNat % 4096 % 16 ∧
          w.toNat % 4096 % 16 ≤ 4 := by
      rw [eq_cellWord_iff (by simp only [cellNumber]; omega)]
      simp only [cellNumber]
      omega
    simp only [cellOfWord, cellNamed, hkind, h, placeRowOfWord, hbase, hdepth, hiff]
    split_ifs with hk
    · have hrow : w.toNat / 16 % 16 = w.toNat % 4096 / 16 := by omega
      have hrows : w.toNat % 8 = w.toNat % 4096 % 16 := by omega
      rw [hrow, hrows]
    · rfl
  · have hiff : (w.toNat / 64 % 32 ≤ 26 ∧ 16 ≤ w.toNat % 64 ∧ w.toNat % 64 ≤ 40 ∧
        w = cellWord (.placeCol (w.toNat / 64 % 32) (w.toNat % 64))) ↔
        w.toNat % 4096 < 2048 ∧ w.toNat % 4096 / 64 ≤ 26 ∧ 16 ≤ w.toNat % 4096 % 64 ∧
          w.toNat % 4096 % 64 ≤ 40 := by
      rw [eq_cellWord_iff (by simp only [cellNumber]; omega)]
      simp only [cellNumber]
      omega
    simp only [cellOfWord, cellNamed, hkind, h, placeColOfWord, hleft, hsix, hiff]
    split_ifs with hk
    · have hcol : w.toNat / 64 % 32 = w.toNat % 4096 / 64 := by omega
      have hcols : w.toNat % 64 = w.toNat % 4096 % 64 := by omega
      rw [hcol, hcols]
    · rfl
  · rw [cellNamed_of_noKind hnone, cellOfWord, hkind]
    split
    case h_8 => rfl
    all_goals omega

theorem reads_cell :
    Reads readCell (fun w => (cellNamed w).isSome = true) (fun w => [w])
      fun w => (cellNamed w).getD .blank := by
  intro ws c rest
  cases ws with
  | nil => simp [readCell]
  | cons w tail =>
    simp only [readCell, cellOfWord_eq, Option.map_eq_some_iff, Prod.mk.injEq, List.singleton_append,
      List.cons.injEq]
    constructor
    · rintro ⟨c, hc, rfl, rfl⟩
      exact ⟨w, by simp [hc], ⟨rfl, rfl⟩, by simp [hc]⟩
    · rintro ⟨v, hv, ⟨rfl, rfl⟩, rfl⟩
      obtain ⟨c, hc⟩ := Option.isSome_iff_exists.mp hv
      exact ⟨c, hc, by simp [hc], rfl⟩

/-! ### Groups, spans, entries and cues -/

/-- The two words of a table entry. -/
def pairWords (p : Word × Word) : List Word := [p.1, p.2]

theorem pairWords_eq : pairWords = fun p => [p.1, p.2] := rfl

theorem reads_group : Reads readGroup (fun _ => True) pairWords groupNamed := by
  intro ws g rest
  have hhigh : ∀ w : Word, field w 8 6 = w.toNat / 256 % 64 := fun w => field_eq w 8 6
  have hlow : ∀ w : Word, field w 0 6 = w.toNat % 64 := fun w => by simp [field_eq]
  match ws with
  | [] | [_] => simp [readGroup, pairWords]
  | i :: l :: tail =>
    simp only [readGroup, idOfWord_eq, hhigh, hlow, Option.some.injEq, Prod.mk.injEq, pairWords,
      List.cons_append, List.nil_append, List.cons.injEq, true_and, Prod.exists]
    constructor
    · rintro ⟨rfl, rfl⟩
      exact ⟨i, l, ⟨rfl, rfl, rfl⟩, rfl⟩
    · rintro ⟨_, _, ⟨rfl, rfl, rfl⟩, rfl⟩
      exact ⟨rfl, rfl⟩

/-- A span's identity and columns, its start column still to be laid out. -/
def spanNamed (p : Word × Word) : Span := { id := idNamed p.1, start := 0, columns := p.2.toNat }

theorem reads_span : Reads readSpan (fun _ => True) pairWords spanNamed := by
  intro ws sp rest
  match ws with
  | [] | [_] => simp [readSpan, pairWords]
  | i :: l :: tail =>
    simp only [readSpan, idOfWord_eq, Option.some.injEq, Prod.mk.injEq, pairWords,
      List.cons_append, List.nil_append, List.cons.injEq, true_and, Prod.exists]
    constructor
    · rintro ⟨rfl, rfl⟩
      exact ⟨i, l, ⟨rfl, rfl, rfl⟩, rfl⟩
    · rintro ⟨_, _, ⟨rfl, rfl, rfl⟩, rfl⟩
      exact ⟨rfl, rfl⟩

/-- The entry of a stack entry word. -/
def entryNamed (w : Word) : ImageEntry := { tag := tagOfCode (w.extractLsb' 13 3), id := idNamed w }

theorem reads_entry : Reads readEntry (fun _ => True) (fun w => [w]) entryNamed := by
  intro ws en rest
  cases ws with
  | nil => simp [readEntry]
  | cons w tail =>
    simp only [readEntry, idOfWord_eq, Option.some.injEq, Prod.mk.injEq, List.singleton_append,
      List.cons.injEq, true_and]
    constructor
    · rintro ⟨rfl, rfl⟩
      exact ⟨w, ⟨rfl, rfl⟩, rfl⟩
    · rintro ⟨_, ⟨rfl, rfl⟩, rfl⟩
      exact ⟨rfl, rfl⟩

theorem actionOfWords_eq (action argument : Word) :
    actionOfWords action argument =
      if action.toNat % 256 ≤ 4 then some (actionNamed (action.toNat % 256)
        (if action.toNat % 256 = 3 then [BitVec.ofNat 16 (action.toNat / 256), argument]
          else [argument])) else none := by
  have hlow : field action 0 8 = action.toNat % 256 := by simp [field_eq]
  have hhigh : field action 8 8 = action.toNat / 256 := by
    have := action.isLt
    rw [field_eq]
    omega
  rw [actionOfWords, hlow, hhigh]
  split
  · next h => simp [h, actionNamed]
  · next h => simp [h, actionNamed]
  · next h => simp [h, actionNamed]
  · next h => simp [h, actionNamed, wordOf]
  · next h => simp [h, actionNamed]
  · next h0 h1 h2 h3 h4 =>
    refine (if_neg fun hle => ?_).symm
    interval_cases action.toNat % 256 <;> contradiction

theorem frameOfWords_toNat (low high : Word) :
    (frameOfWords low high).toNat = low.toNat + 65536 * high.toNat := by
  rw [frameOfWords, Words.toNat_append]
  omega

theorem reads_cue (epoch : Byte) :
    Reads (readCue epoch) (fun r => r.length = 5 ∧ numberAt r 3 % 256 ≤ 4) id (cueNamed epoch) := by
  intro ws q rest
  have hnamed : ∀ (tag low high action argument : Word) tail, action.toNat % 256 ≤ 4 →
      readCue epoch (tag :: low :: high :: action :: argument :: tail) =
        some (cueNamed epoch [tag, low, high, action, argument], tail) := by
    intro tag low high action argument tail hle
    have htag : lowByte tag = BitVec.ofNat 8 tag.toNat := by
      apply BitVec.eq_of_toNat_eq
      simp [lowByte]
    simp [readCue, actionOfWords_eq, hle, cueNamed, numberAt, frameOfWords_toNat, htag]
  constructor
  · intro h
    match ws with
    | [] | [_] | [_, _] | [_, _, _] | [_, _, _, _] => simp [readCue] at h
    | tag :: low :: high :: action :: argument :: tail =>
      by_cases hle : action.toNat % 256 ≤ 4
      · rw [hnamed _ _ _ _ _ _ hle] at h
        cases h
        exact ⟨_, ⟨rfl, by simpa [numberAt] using hle⟩, rfl, rfl⟩
      · simp [readCue, actionOfWords_eq, hle] at h
  · rintro ⟨r, ⟨hlen, hle⟩, rfl, rfl⟩
    match r, hlen with
    | [tag, low, high, action, argument], _ =>
      exact hnamed tag low high action argument rest (by simpa [numberAt] using hle)

/-! ### Sections -/

/-- The cells of words that all name one. -/
theorem filterMap_cellNamed {ws : List Word} (h : ∀ w ∈ ws, (cellNamed w).isSome = true) :
    ws.map (fun w => (cellNamed w).getD .blank) = ws.filterMap cellNamed := by
  induction ws with
  | nil => rfl
  | cons w rest ih =>
    obtain ⟨hw, hrest⟩ := List.forall_mem_cons.mp h
    obtain ⟨c, hc⟩ := Option.isSome_iff_exists.mp hw
    rw [List.map_cons, ih hrest, List.filterMap_cons_some hc, hc]
    rfl

/-- The words of the cell queue and row model sections. -/
structure RowWords where
  cells : List Word
  groups : List (Word × Word)
  cursor : Word
  spans : List (Word × Word)

theorem reads_row (n : ImageCounts) :
    Reads (readRow n)
      (fun r : RowWords => r.cells.length = n.cells ∧ (∀ w ∈ r.cells, (cellNamed w).isSome = true) ∧
        r.groups.length = n.groups ∧ r.spans.length = n.spans)
      (fun r => r.cells ++ r.groups.flatMap pairWords ++ [r.cursor] ++ r.spans.flatMap pairWords)
      (fun r => (r.cells.filterMap cellNamed, r.groups.map groupNamed, r.cursor.toNat,
        r.spans.map spanNamed)) := by
  intro ws x rest
  constructor
  · intro h
    simp only [readRow, Option.bind_eq_bind, Option.bind_eq_some_iff] at h
    obtain ⟨⟨cells, ws1⟩, hcells, ⟨groups, ws2⟩, hgroups, h⟩ := h
    obtain ⟨cs, ⟨hcs, hnamed⟩, rfl, rfl⟩ := (reads_cell.many _ _ _ _).mp hcells
    obtain ⟨gs, ⟨hgs, -⟩, hws1, rfl⟩ := (reads_group.many _ _ _ _).mp hgroups
    dsimp only at hws1 h
    split at h
    · cases h
    · next cursor ws3 =>
      simp only [Option.bind_eq_some_iff] at h
      obtain ⟨⟨spans, ws4⟩, hspans, h⟩ := h
      obtain ⟨sps, ⟨hsps, -⟩, hws3, rfl⟩ := (reads_span.many _ _ _ _).mp hspans
      dsimp only at hws3 h
      cases h
      refine ⟨⟨cs, gs, cursor, sps⟩, ⟨hcs, hnamed, hgs, hsps⟩, ?_, ?_⟩
      · simp [hws1, hws3]
      · simp only [filterMap_cellNamed hnamed]
  · rintro ⟨⟨cs, gs, cursor, sps⟩, ⟨hcs, hnamed, hgs, hsps⟩, rfl, rfl⟩
    have hcells := (reads_cell.many n.cells _ _
      (gs.flatMap pairWords ++ cursor :: (sps.flatMap pairWords ++ rest))).mpr
        ⟨cs, ⟨hcs, hnamed⟩, rfl, rfl⟩
    have hgroups := (reads_group.many n.groups _ _
      (cursor :: (sps.flatMap pairWords ++ rest))).mpr ⟨gs, ⟨hgs, fun _ _ => trivial⟩, rfl, rfl⟩
    have hspans := (reads_span.many n.spans _ _ rest).mpr ⟨sps, ⟨hsps, fun _ _ => trivial⟩, rfl, rfl⟩
    simp only [List.flatMap_singleton', filterMap_cellNamed hnamed] at hcells
    simp [readRow, hcells, hgroups, hspans]

theorem placesOf_eq (mask : Byte) : placesOf mask = placesMarked mask.toNat := rfl

theorem lowByte_toNat (w : Word) : (lowByte w).toNat = w.toNat % 256 := by
  simp [lowByte]

theorem highByte_toNat (w : Word) : (highByte w).toNat = w.toNat / 256 := by
  have := w.isLt
  simp only [highByte, BitVec.extractLsb'_toNat, Nat.shiftRight_eq_div_pow]
  omega

/-- The words of the stacks section. -/
structure StackWords where
  presence : Word
  entriesA : List Word
  entriesB : List Word

theorem reads_stacks :
    Reads readStacks
      (fun r : StackWords => r.entriesA.length = placesMarked (r.presence.toNat % 256) ∧
        r.entriesB.length = placesMarked (r.presence.toNat / 256))
      (fun r => [r.presence] ++ r.entriesA ++ r.entriesB)
      (fun r => (r.entriesA.map entryNamed, r.entriesB.map entryNamed)) := by
  intro ws x rest
  cases ws with
  | nil => simp [readStacks]
  | cons mask tail =>
    simp only [readStacks, placesOf_eq, lowByte_toNat, highByte_toNat]
    constructor
    · intro h
      simp only [Option.bind_eq_bind, Option.bind_eq_some_iff] at h
      obtain ⟨⟨stackA, ws1⟩, ha, ⟨stackB, ws2⟩, hb, h⟩ := h
      obtain ⟨as, ⟨has, -⟩, rfl, rfl⟩ := (reads_entry.many _ _ _ _).mp ha
      obtain ⟨bs, ⟨hbs, -⟩, hws1, rfl⟩ := (reads_entry.many _ _ _ _).mp hb
      dsimp only at hws1 h
      cases h
      exact ⟨⟨mask, as, bs⟩, ⟨has, hbs⟩, by simp [hws1], rfl⟩
    · rintro ⟨⟨mask', as, bs⟩, ⟨has, hbs⟩, hws, rfl⟩
      obtain ⟨rfl, rfl⟩ : mask = mask' ∧ tail = as ++ (bs ++ rest) := by simpa using hws
      have ha := (reads_entry.many (placesMarked (mask.toNat % 256)) _ _ (bs ++ rest)).mpr
        ⟨as, ⟨has, fun _ _ => trivial⟩, rfl, rfl⟩
      have hb := (reads_entry.many (placesMarked (mask.toNat / 256)) _ _ rest).mpr
        ⟨bs, ⟨hbs, fun _ _ => trivial⟩, rfl, rfl⟩
      simp only [List.flatMap_singleton'] at ha hb
      simp [ha, hb]

/-- What a division's records name. -/
def sectionsNamed (epoch : Byte) (g : Division) : ImageSections :=
  { queueA := g.queueA.map tokenNamed, queueB := g.queueB.map tokenNamed,
    schedule := g.schedule.map tokenNamed, cells := g.cells.filterMap cellNamed,
    groups := g.groups.map groupNamed, cursor := g.cursor.toNat, spans := g.spans.map spanNamed,
    stackA := g.entriesA.map entryNamed, stackB := g.entriesB.map entryNamed,
    cues := g.cues.map (cueNamed epoch) }

/-- Every record of a division names something. -/
def readable (g : Division) : Prop :=
  (∀ r ∈ g.records, recordNames r) ∧ (∀ w ∈ g.cells, (cellNamed w).isSome = true) ∧ cuesPass g

/-- The section counts of a header. -/
theorem countsOf_eq (ws : List Word) : countsOf ws =
    { queueA := numberAt ws 4 / 256, queueB := numberAt ws 4 % 256,
      schedule := numberAt ws 5 / 256, cells := numberAt ws 5 % 256,
      groups := numberAt ws 6 / 256, spans := numberAt ws 6 % 256, cues := numberAt ws 7 / 256 } := by
  have hhigh : ∀ w : Word, field w 8 8 = w.toNat / 256 := fun w => by
    have := w.isLt
    rw [field_eq]
    omega
  have hlow : ∀ w : Word, field w 0 8 = w.toNat % 256 := fun w => by simp [field_eq]
  simp only [countsOf, hhigh, hlow, numberAt]

/-- The sections are read exactly where the image is divided and every record names something. -/
theorem readSections_eq_some_iff (epoch : Byte) (ws : List Word) (S : ImageSections) :
    readSections epoch (countsOf ws) ((ws.drop 24).dropLast) = some S ↔
      ∃ g, divides ws g ∧ readable g ∧ S = sectionsNamed epoch g := by
  generalize hbody : (ws.drop 24).dropLast = body
  rw [countsOf_eq]
  constructor
  · intro h
    simp only [readSections, Option.bind_eq_bind, Option.bind_eq_some_iff] at h
    obtain ⟨⟨qa, ws1⟩, hqa, ⟨qb, ws2⟩, hqb, ⟨sched, ws3⟩, hsched, ⟨row, ws4⟩, hrow,
      ⟨marked, ws5⟩, hstacks, ⟨cues, ws6⟩, hcues, h⟩ := h
    obtain ⟨ras, ⟨hras, hasok⟩, rfl, rfl⟩ := (reads_token.many _ _ _ _).mp hqa
    obtain ⟨rbs, ⟨hrbs, hbsok⟩, hws1, rfl⟩ := (reads_token.many _ _ _ _).mp hqb
    obtain ⟨rss, ⟨hrss, hssok⟩, hws2, rfl⟩ := (reads_token.many _ _ _ _).mp hsched
    obtain ⟨r, ⟨hcells, hnamed, hgroups, hspans⟩, hws3, rfl⟩ := (reads_row _ _ _ _).mp hrow
    obtain ⟨st, ⟨has, hbs⟩, hws4, rfl⟩ := (reads_stacks _ _ _).mp hstacks
    obtain ⟨qs, ⟨hqs, hqok⟩, hws5, rfl⟩ := ((reads_cue epoch).many _ _ _ _).mp hcues
    dsimp only at hws1 hws2 hws3 hws4 hws5 h
    split at h
    · next hend =>
      cases h
      obtain rfl : ws6 = [] := by simpa using hend
      subst hws1 hws2 hws3 hws4 hws5
      refine ⟨⟨ras, rbs, rss, r.cells, r.groups, r.cursor, r.spans, st.presence, st.entriesA,
        st.entriesB, qs⟩, ⟨?_, ⟨hras, hrbs, hrss, hcells, hgroups, hspans, hqs⟩, ?_, has, hbs,
          fun q hq => (hqok q hq).1⟩, ⟨?_, hnamed, fun q hq => (hqok q hq).2⟩, rfl⟩
      · simp [hbody, Division.records, pairWords_eq, List.flatMap_id]
      · intro w hw
        simp only [Division.records, List.mem_append] at hw
        rcases hw with (hw | hw) | hw
        · exact (hasok w hw).1
        · exact (hbsok w hw).1
        · exact (hssok w hw).1
      · intro w hw
        simp only [Division.records, List.mem_append] at hw
        rcases hw with (hw | hw) | hw
        · exact (hasok w hw).2
        · exact (hbsok w hw).2
        · exact (hssok w hw).2
    · cases h
  · rintro ⟨g, ⟨hwords, ⟨hqa, hqb, hsched, hcells, hgroups, hspans, hcues⟩, hfits, has, hbs,
      hfive⟩, ⟨hnames, hnamed, hactions⟩, rfl⟩
    rw [hbody] at hwords
    have hrecord : ∀ rs : List (List Word), (∀ r ∈ rs, r ∈ g.records) →
        ∀ r ∈ rs, recordFits r ∧ recordNames r := fun rs hrs r hr =>
      ⟨hfits r (hrs r hr), hnames r (hrs r hr)⟩
    have hrecords : ∀ n (rs : List (List Word)), rs.length = n → (∀ r ∈ rs, r ∈ g.records) →
        ∀ tail, readMany readToken n (rs.flatten ++ tail) = some (rs.map tokenNamed, tail) := by
      intro n rs hlen hrs tail
      rw [← List.flatMap_id]
      exact (reads_token.many n _ _ tail).mpr ⟨rs, ⟨hlen, hrecord rs hrs⟩, rfl, rfl⟩
    have hcuesRead := ((reads_cue epoch).many (numberAt ws 7 / 256) _ _ []).mpr
      ⟨g.cues, ⟨hcues, fun q hq => ⟨hfive q hq, hactions q hq⟩⟩, rfl, rfl⟩
    have hstacksRead := (reads_stacks _ _ g.cues.flatten).mpr
      ⟨⟨g.presence, g.entriesA, g.entriesB⟩, ⟨has, hbs⟩, rfl, rfl⟩
    have hrowRead := fun hn => (reads_row (countsOf ws) _ _
      ([g.presence] ++ g.entriesA ++ g.entriesB ++ g.cues.flatten)).mpr
        ⟨⟨g.cells, g.groups, g.cursor, g.spans⟩, hn, rfl, rfl⟩
    rw [countsOf_eq] at hrowRead
    replace hrowRead := hrowRead ⟨hcells, hnamed, hgroups, hspans⟩
    have hqa := hrecords _ g.queueA hqa (by simp +contextual [Division.records])
    have hqb := hrecords _ g.queueB hqb (by simp +contextual [Division.records])
    have hsched := hrecords _ g.schedule hsched (by simp +contextual [Division.records])
    have hbody' : body = g.queueA.flatten ++ (g.queueB.flatten ++ (g.schedule.flatten ++
        (g.cells ++ g.groups.flatMap pairWords ++ [g.cursor] ++ g.spans.flatMap pairWords ++
          ([g.presence] ++ g.entriesA ++ g.entriesB ++ g.cues.flatten)))) := by
      rw [hwords, Division.records, pairWords_eq]
      simp only [List.flatten_append, List.append_assoc]
    dsimp only at hcuesRead hstacksRead hrowRead
    rw [List.flatMap_id, List.append_nil] at hcuesRead
    rw [hbody', readSections]
    simp only [hqa, hqb, hsched, hrowRead, hstacksRead,
      hcuesRead, Option.bind_eq_bind, Option.bind_some, List.isEmpty_nil, if_true, sectionsNamed]

end Sys2Proof.Images
end

section
/-! SUPPORT. The checks of R173, one after another, and the commit of an image, settled. -/

namespace Sys2Proof.Images

open Sys2Proof.Machine Sys2Proof.Expect Sys2Proof.ProgrammeTime Sys2Proof.Accesses
  Sys2Proof.Records Sys2Proof.Directives

/-! ### An image is divided in one way -/

/-- Words that begin with a record tell which record it is. -/
def PrefixFree {ρ : Type} (ok : ρ → Prop) (words : ρ → List Word) : Prop :=
  ∀ r r' u u', ok r → ok r' → words r ++ u = words r' ++ u' → r = r' ∧ u = u'

theorem PrefixFree.many {ρ : Type} {ok : ρ → Prop} {words : ρ → List Word}
    (h : PrefixFree ok words) {rs rs' : List ρ} {u u' : List Word} (hlen : rs.length = rs'.length)
    (hrs : ∀ r ∈ rs, ok r) (hrs' : ∀ r ∈ rs', ok r)
    (heq : rs.flatMap words ++ u = rs'.flatMap words ++ u') : rs = rs' ∧ u = u' := by
  induction rs generalizing rs' with
  | nil =>
    obtain rfl := List.length_eq_zero_iff.mp hlen.symm
    exact ⟨rfl, heq⟩
  | cons r rest ih =>
    obtain ⟨r', rest', rfl⟩ := List.exists_cons_of_length_eq_add_one hlen.symm
    obtain ⟨hr, hrest⟩ := List.forall_mem_cons.mp hrs
    obtain ⟨hr', hrest'⟩ := List.forall_mem_cons.mp hrs'
    rw [List.flatMap_cons, List.flatMap_cons, List.append_assoc, List.append_assoc] at heq
    obtain ⟨rfl, htail⟩ := h _ _ _ _ hr hr' heq
    obtain ⟨rfl, hu⟩ := ih (by simpa using hlen) hrest hrest' htail
    exact ⟨rfl, hu⟩

theorem prefixFree_record : PrefixFree recordFits id := by
  intro r r' u u' hr hr' heq
  have hhead : numberAt r 0 = numberAt r' 0 := by
    have hlong : 0 < r.length ∧ 0 < r'.length := by
      rw [recordFits] at hr hr'
      omega
    have hget := congrArg (·.getD 0 0) heq
    simpa [numberAt, List.getD_eq_getElem?_getD, List.getElem?_append_left, hlong] using
      congrArg BitVec.toNat hget
  refine List.append_inj heq ?_
  simp only [recordFits] at hr hr'
  show r.length = r'.length
  rw [hr, hr', hhead]

theorem prefixFree_pair : PrefixFree (fun _ => True) pairWords := by
  rintro ⟨a, b⟩ ⟨a', b'⟩ u u' - - heq
  simpa [pairWords, and_assoc] using heq

theorem prefixFree_cue : PrefixFree (fun r : List Word => r.length = 5) id := fun _ _ _ _ hr hr' heq =>
  List.append_inj heq (hr.trans hr'.symm)

theorem divides_unique {ws : List Word} {g g' : Division} (h : divides ws g) (h' : divides ws g') :
    g = g' := by
  obtain ⟨hwords, ⟨hqa, hqb, hsched, hcells, hgroups, hspans, hcues⟩, hfits, has, hbs, hfive⟩ := h
  obtain ⟨hwords', ⟨hqa', hqb', hsched', hcells', hgroups', hspans', hcues'⟩, hfits', has', hbs',
    hfive'⟩ := h'
  have heq := hwords.symm.trans hwords'
  simp only [← pairWords_eq, ← List.flatMap_id, List.append_assoc, List.singleton_append] at heq
  have hrecords : g.records.length = g'.records.length := by
    simp [Division.records, hqa, hqb, hsched, hqa', hqb', hsched']
  obtain ⟨hr, heq⟩ := prefixFree_record.many hrecords hfits hfits' heq
  obtain ⟨hc, heq⟩ := List.append_inj heq (hcells.trans hcells'.symm)
  obtain ⟨hg, heq⟩ := prefixFree_pair.many (hgroups.trans hgroups'.symm) (fun _ _ => trivial)
    (fun _ _ => trivial) heq
  obtain ⟨hcursor, heq⟩ := List.cons_eq_cons.mp heq
  obtain ⟨hsp, heq⟩ := prefixFree_pair.many (hspans.trans hspans'.symm) (fun _ _ => trivial)
    (fun _ _ => trivial) heq
  obtain ⟨hpresence, heq⟩ := List.cons_eq_cons.mp heq
  obtain ⟨ha, heq⟩ := List.append_inj heq (by rw [has, has', hpresence])
  obtain ⟨hb, heq⟩ := List.append_inj heq (by rw [hbs, hbs', hpresence])
  obtain ⟨hq, -⟩ := prefixFree_cue.many (u := []) (u' := []) (hcues.trans hcues'.symm) hfive hfive'
    (by simpa using heq)
  rw [Division.records, Division.records, List.append_assoc, List.append_assoc] at hr
  obtain ⟨ha', hr⟩ := List.append_inj hr (hqa.trans hqa'.symm)
  obtain ⟨hb', hs⟩ := List.append_inj hr (hqb.trans hqb'.symm)
  cases g
  cases g'
  simp_all

/-! ### The checks on sections -/

theorem idsDistinct_iff (ids : List TokenId) : idsDistinct ids = true ↔ ids.Nodup := by
  induction ids with
  | nil => simp [idsDistinct]
  | cons i rest ih => simp [idsDistinct, ih]

/-- A run begun goes on with characters until its last cell. -/
theorem runsOk_run (k : Nat) (gs : List GroupRecord) (cs : List Cell) :
    runsOk k gs cs = true ↔ ∃ own back, cs = own ++ back ∧ own.length = k ∧
      (∀ c ∈ own, isGroupCell c = true ∧ c ≠ .marker) ∧ runsOk 0 gs back = true := by
  induction k generalizing cs with
  | zero =>
    constructor
    · exact fun h => ⟨[], cs, rfl, rfl, nofun, h⟩
    · rintro ⟨own, back, rfl, hlen, -, h⟩
      obtain rfl := List.length_eq_zero_iff.mp hlen
      exact h
  | succ k ih =>
    cases cs with
    | nil =>
      refine iff_of_false (by simp [runsOk]) ?_
      rintro ⟨own, back, heq, hlen, -⟩
      simp_all
    | cons c rest =>
      by_cases hc : isGroupCell c = true
      · have hstep : runsOk (k + 1) gs (c :: rest) = true ↔ c ≠ .marker ∧ runsOk k gs rest = true := by
          simp [runsOk, hc]
        rw [hstep, ih]
        constructor
        · rintro ⟨hmarker, own, back, rfl, rfl, hown, h⟩
          exact ⟨c :: own, back, rfl, rfl, List.forall_mem_cons.mpr ⟨⟨hc, hmarker⟩, hown⟩, h⟩
        · rintro ⟨own, back, heq, hlen, hown, h⟩
          obtain ⟨d, own, rfl⟩ := List.exists_cons_of_length_eq_add_one hlen
          obtain ⟨rfl, rfl⟩ := List.cons_eq_cons.mp heq
          obtain ⟨hd, hown⟩ := List.forall_mem_cons.mp hown
          exact ⟨hd.2, own, back, rfl, by simpa using hlen, hown, h⟩
      · refine iff_of_false (by simp [runsOk, hc]) ?_
        rintro ⟨own, back, heq, hlen, hown, -⟩
        obtain ⟨d, own, rfl⟩ := List.exists_cons_of_length_eq_add_one hlen
        obtain ⟨rfl, -⟩ := List.cons_eq_cons.mp heq
        exact hc (hown c (by simp)).1

/-- A cell of no group may stand ahead of the runs. -/
theorem runsStand_cons_of_other {c : Cell} (hc : isGroupCell c = false) (gs : List GroupRecord)
    (cs : List Cell) : runsStand gs (c :: cs) ↔ runsStand gs cs := by
  induction gs with
  | nil => simp [runsStand, hc]
  | cons g rest ih =>
    constructor
    · rintro ⟨front, own, back, heq, hfront, hlen, hown, hmarker, hback⟩
      cases front with
      | nil =>
        cases own with
        | nil =>
          obtain rfl : c :: cs = back := heq
          exact ⟨[], [], cs, rfl, nofun, hlen, nofun, nofun, ih.mp hback⟩
        | cons d own =>
          obtain ⟨rfl, -⟩ := List.cons_eq_cons.mp heq
          simp [hc] at hown
      | cons d front =>
        obtain ⟨rfl, rfl⟩ := List.cons_eq_cons.mp heq
        exact ⟨front, own, back, rfl, (List.forall_mem_cons.mp hfront).2, hlen, hown, hmarker, hback⟩
    · rintro ⟨front, own, back, rfl, hfront, hlen, hown, hmarker, hback⟩
      exact ⟨c :: front, own, back, rfl, List.forall_mem_cons.mpr ⟨hc, hfront⟩, hlen, hown, hmarker,
        hback⟩

/-- A group cell at the front begins the first group's run. -/
theorem runsStand_cons_of_group {c : Cell} (hc : isGroupCell c = true) {g : GroupRecord}
    (hg : g.taken < g.composed) (rest : List GroupRecord) (cs : List Cell) :
    runsStand (g :: rest) (c :: cs) ↔ (c = .marker → g.composed = 1) ∧
      ∃ own back, cs = own ++ back ∧ own.length = untaken g - 1 ∧
        (∀ d ∈ own, isGroupCell d = true ∧ d ≠ .marker) ∧ runsStand rest back := by
  constructor
  · rintro ⟨front, own, back, heq, hfront, hlen, hown, hmarker, hback⟩
    cases front with
    | cons d front =>
      obtain ⟨rfl, -⟩ := List.cons_eq_cons.mp heq
      simp [hc] at hfront
    | nil =>
      cases own with
      | nil =>
        simp only [List.length_nil] at hlen
        omega
      | cons d own =>
        obtain ⟨rfl, rfl⟩ := List.cons_eq_cons.mp heq
        simp only [List.length_cons] at hlen
        have hmarker' : Cell.marker ∈ own → False := fun hmem => by
          have hone := hmarker (List.mem_cons_of_mem _ hmem)
          have hpos := List.length_pos_of_mem hmem
          omega
        refine ⟨fun h => hmarker (by simp [h]), own, back, rfl, by simp only [untaken]; omega,
          fun d hd => ⟨hown d (by simp [hd]), ?_⟩, hback⟩
        rintro rfl
        exact hmarker' hd
  · rintro ⟨hmarker, own, back, rfl, hlen, hown, hback⟩
    simp only [untaken] at hlen
    refine ⟨[], c :: own, back, rfl, nofun, by simp only [List.length_cons]; omega,
      List.forall_mem_cons.mpr ⟨hc, fun d hd => (hown d hd).1⟩, fun hmem => ?_, hback⟩
    rcases List.mem_cons.mp hmem with heq | hmem
    · exact hmarker heq.symm
    · exact absurd rfl (hown _ hmem).2

theorem runsOk_iff {gs : List GroupRecord} (h : ∀ g ∈ gs, g.taken < g.composed) (cs : List Cell) :
    runsOk 0 gs cs = true ↔ runsStand gs cs := by
  induction hn : cs.length using Nat.strong_induction_on generalizing gs cs with
  | _ n ih =>
    subst hn
    cases cs with
    | nil =>
      cases gs with
      | nil => simp [runsOk, runsStand]
      | cons g rest =>
        refine iff_of_false (by simp [runsOk]) ?_
        rintro ⟨front, own, back, heq, -, hlen, -⟩
        have hg := h g (by simp)
        simp_all
        omega
    | cons c cs =>
      cases hc : isGroupCell c with
      | false =>
        rw [runsStand_cons_of_other hc, ← ih _ (by simp) h cs rfl]
        simp [runsOk, hc]
      | true =>
        cases gs with
        | nil => simp [runsOk, runsStand, hc]
        | cons g rest =>
          obtain ⟨hg, hrest⟩ := List.forall_mem_cons.mp h
          have hstep : runsOk 0 (g :: rest) (c :: cs) = true ↔
              (c = .marker → g.composed = 1) ∧ runsOk (untaken g - 1) rest cs = true := by
            cases c with
            | marker => simp [runsOk, isGroupCell]
            | char a => simp [runsOk, isGroupCell]
            | _ => cases hc
          rw [hstep, runsStand_cons_of_group hc hg, runsOk_run]
          refine and_congr_right fun _ => exists_congr fun own => exists_congr fun back =>
            and_congr_right fun heq => ?_
          rw [ih back.length (by simp [heq]) hrest back rfl]

/-- The checks of R173 on the sections of an image, and on its layout. -/
structure SectionsPass (l : Layout) (S : ImageSections) : Prop where
  lanes : (∀ t ∈ S.queueA, t.id.lane = .a) ∧ ∀ t ∈ S.queueB, t.id.lane = .b
  identities : (tokenIds S ++ S.groups.map (·.id)).Nodup ∧ (tokenIds S ++ S.spans.map (·.id)).Nodup ∧
    ((S.stackA ++ S.stackB).map (·.id)).Nodup
  layout : layoutValid l = true
  groups : ∀ g ∈ S.groups, g.taken < g.composed ∧ g.composed ≤ 33
  runs : runsStand S.groups S.cells
  row : S.cursor ≤ l.width ∧ S.cursor = (S.spans.map (·.columns)).sum ∧ ∀ sp ∈ S.spans, 1 ≤ sp.columns
  tail : ∀ sp ∈ S.spans.getLast?, if sp.id ∈ S.groups.map (·.id)
    then (S.groups.map (·.id)).getLast? = some sp.id ∧ ∃ c ∈ S.cells.getLast?, isGroupCell c = true
    else S.cells.length < 40 ∧ ∀ c ∈ S.cells, isErase c = true
  entries : (∀ en ∈ S.stackA, en.id.lane = .a) ∧ (∀ en ∈ S.stackB, en.id.lane = .b) ∧
    ∀ en ∈ S.stackA ++ S.stackB, liveTag en.tag = true →
      en.id ∈ tokenIds S ++ S.groups.map (·.id) ++ S.spans.map (·.id)

theorem tailOk_iff (S : ImageSections) :
    tailOk S = true ↔ ∀ sp ∈ S.spans.getLast?, if sp.id ∈ S.groups.map (·.id)
      then (S.groups.map (·.id)).getLast? = some sp.id ∧ ∃ c ∈ S.cells.getLast?, isGroupCell c = true
      else S.cells.length < 40 ∧ ∀ c ∈ S.cells, isErase c = true := by
  unfold tailOk
  cases S.spans.getLast? with
  | none => simp
  | some sp =>
    have hnamed : (groupOf sp.id S.groups).isSome = true ↔ sp.id ∈ S.groups.map (·.id) := by
      simp [groupOf, List.find?_isSome]
    simp only [Option.mem_def, Option.some.injEq, forall_eq', hnamed]
    split
    · rw [endsWithGroup, Bool.and_eq_true, List.getLast?_map]
      refine and_congr ?_ ?_
      · cases S.groups.getLast? <;> simp
      · cases S.cells.getLast? <;> simp
    · simp [and_comm]

theorem sectionsOk_iff (l : Layout) (S : ImageSections) : sectionsOk l S = true ↔ SectionsPass l S := by
  have hruns : cellsOk S = true ↔ (∀ g ∈ S.groups, g.taken < g.composed ∧ g.composed ≤ 33) ∧
      runsStand S.groups S.cells := by
    rw [cellsOk, Bool.and_eq_true, List.all_eq_true]
    simp only [Bool.and_eq_true, decide_eq_true_eq]
    exact and_congr_right fun h => runsOk_iff (fun g hg => (h g hg).1) _
  have hstack : ∀ x st, stackOk x S st = true ↔ (∀ en ∈ st, en.id.lane = x) ∧
      ∀ en ∈ st, liveTag en.tag = true →
        en.id ∈ tokenIds S ++ S.groups.map (·.id) ++ S.spans.map (·.id) := by
    intro x st
    have hlive : ∀ (b : Bool) (p : Prop), (b = false ∨ p) ↔ (b = true → p) := fun b p => by
      cases b <;> simp
    simp only [stackOk, List.all_eq_true, Bool.and_eq_true, beq_iff_eq, Bool.or_eq_true,
      Bool.not_eq_true', List.contains_iff_mem, hlive]
    exact ⟨fun h => ⟨fun en hen => (h en hen).1, fun en hen => (h en hen).2⟩,
      fun h en hen => ⟨h.1 en hen, h.2 en hen⟩⟩
  simp only [sectionsOk, Bool.and_eq_true, queueLanesOk, identitiesOk, rowOk, List.all_eq_true,
    beq_iff_eq, decide_eq_true_eq, idsDistinct_iff, hruns, hstack, tailOk_iff]
  constructor
  · rintro ⟨⟨⟨⟨⟨⟨⟨hlanes, ⟨h1, h2⟩, h3⟩, hlayout⟩, hgroups, hr⟩, ⟨hw, hc⟩, hcols⟩, htail⟩, ha, hla⟩,
      hb, hlb⟩
    exact ⟨hlanes, ⟨h1, h2, h3⟩, hlayout, hgroups, hr, ⟨hw, hc, hcols⟩, htail,
      ⟨ha, hb, fun en hen => (List.mem_append.mp hen).elim (hla en) (hlb en)⟩⟩
  · rintro ⟨hlanes, ⟨h1, h2, h3⟩, hlayout, hgroups, hr, ⟨hw, hc, hcols⟩, htail, ha, hb, hl⟩
    exact ⟨⟨⟨⟨⟨⟨⟨hlanes, ⟨h1, h2⟩, h3⟩, hlayout⟩, hgroups, hr⟩, ⟨hw, hc⟩, hcols⟩, htail⟩, ha,
      fun en hen => hl en (List.mem_append_left _ hen)⟩, hb,
        fun en hen => hl en (List.mem_append_right _ hen)⟩

end Sys2Proof.Images
end

section
/-! SUPPORT. The commit of an image that passes every check of R173, settled. -/

namespace Sys2Proof.Images

open Sys2Proof.Machine Sys2Proof.Expect Sys2Proof.ProgrammeTime Sys2Proof.Accesses
  Sys2Proof.Records Sys2Proof.Directives Sys2Proof.FloorAndHandoff

/-! ### Names and identities -/

theorem nodup_map_iff {α β γ : Type} {f : α → β} {k : α → γ} (h : ∀ a b, f a = f b ↔ k a = k b)
    (l : List α) : (l.map f).Nodup ↔ (l.map k).Nodup := by
  simp only [List.Nodup, List.pairwise_map, ne_eq, h]

theorem nodup_idNamed (l : List Word) : (l.map idNamed).Nodup ↔ (l.map nameOf).Nodup :=
  nodup_map_iff (fun _ _ => idNamed_inj) l

theorem mem_idNamed {w : Word} {l : List Word} : idNamed w ∈ l.map idNamed ↔ nameOf w ∈ l.map nameOf := by
  simp only [List.mem_map, idNamed_inj]

/-- The identity words of the token records. -/
def recordWords (g : Division) : List Word := g.records.map fun r => r.getD 1 0

theorem tokenIds_sectionsNamed (epoch : Byte) (g : Division) :
    tokenIds (sectionsNamed epoch g) = (recordWords g).map idNamed := by
  simp [tokenIds, sectionsNamed, recordWords, Division.records, tokenNamed, Function.comp_def]

theorem groupIds_sectionsNamed (epoch : Byte) (g : Division) :
    (sectionsNamed epoch g).groups.map (·.id) = (g.groups.map Prod.fst).map idNamed := by
  simp [sectionsNamed, groupNamed, Function.comp_def]

theorem spanIds_sectionsNamed (epoch : Byte) (g : Division) :
    (sectionsNamed epoch g).spans.map (·.id) = (g.spans.map Prod.fst).map idNamed := by
  simp [sectionsNamed, spanNamed, Function.comp_def]

theorem tokenNames_eq (g : Division) : g.tokenNames = (recordWords g).map nameOf := by
  simp [Division.tokenNames, recordWords, Function.comp_def]

theorem groupNames_eq (g : Division) : g.groupNames = (g.groups.map Prod.fst).map nameOf := by
  simp [Division.groupNames, Function.comp_def]

theorem spanNames_eq (g : Division) : g.spanNames = (g.spans.map Prod.fst).map nameOf := by
  simp [Division.spanNames, Function.comp_def]

theorem identities_iff (epoch : Byte) (g : Division) :
    ((tokenIds (sectionsNamed epoch g) ++ (sectionsNamed epoch g).groups.map (·.id)).Nodup ∧
      (tokenIds (sectionsNamed epoch g) ++ (sectionsNamed epoch g).spans.map (·.id)).Nodup ∧
      (((sectionsNamed epoch g).stackA ++ (sectionsNamed epoch g).stackB).map (·.id)).Nodup) ↔
    identitiesPass g := by
  have hentries : (((sectionsNamed epoch g).stackA ++ (sectionsNamed epoch g).stackB).map (·.id)) =
      (g.entriesA ++ g.entriesB).map idNamed := by
    simp [sectionsNamed, entryNamed, Function.comp_def]
  rw [tokenIds_sectionsNamed, groupIds_sectionsNamed, spanIds_sectionsNamed, hentries, identitiesPass,
    tokenNames_eq, groupNames_eq, spanNames_eq, Division.entryNames]
  simp only [← List.map_append, nodup_idNamed]

/-! ### Cells -/

/-- The kind of the cell that a word names stands in its top four bits. -/
theorem cellNamed_kind {w : Word} {c : Cell} (h : cellNamed w = some c) :
    (isGroupCell c = true ↔ w.toNat / 4096 = 1 ∨ w.toNat / 4096 = 2) ∧
      (isErase c = true ↔ w.toNat / 4096 = 4) := by
  unfold cellNamed at h
  dsimp only at h
  split at h
  case h_8 => cases h
  all_goals
    next hkind =>
      simp only [Option.ite_none_right_eq_some, Option.some.injEq] at h
      obtain ⟨-, rfl⟩ := h
      simp [hkind, isGroupCell, isErase]

theorem tail_iff (epoch : Byte) {g : Division} (hnamed : ∀ w ∈ g.cells, (cellNamed w).isSome = true) :
    (∀ sp ∈ (sectionsNamed epoch g).spans.getLast?,
      if sp.id ∈ (sectionsNamed epoch g).groups.map (·.id)
        then ((sectionsNamed epoch g).groups.map (·.id)).getLast? = some sp.id ∧
          ∃ c ∈ (sectionsNamed epoch g).cells.getLast?, isGroupCell c = true
        else (sectionsNamed epoch g).cells.length < 40 ∧
          ∀ c ∈ (sectionsNamed epoch g).cells, isErase c = true) ↔ tailPasses g := by
  have hcells := filterMap_cellNamed hnamed
  have hkind : ∀ w ∈ g.cells, (isGroupCell ((cellNamed w).getD .blank) = true ↔
      w.toNat / 4096 = 1 ∨ w.toNat / 4096 = 2) ∧
        (isErase ((cellNamed w).getD .blank) = true ↔ w.toNat / 4096 = 4) := fun w hw => by
    obtain ⟨c, hc⟩ := Option.isSome_iff_exists.mp (hnamed w hw)
    rw [hc]
    exact cellNamed_kind hc
  have hlast : (∃ c ∈ (sectionsNamed epoch g).cells.getLast?, isGroupCell c = true) ↔
      ∃ w ∈ g.cells.getLast?, w.toNat / 4096 = 1 ∨ w.toNat / 4096 = 2 := by
    rw [sectionsNamed, ← hcells, List.getLast?_map]
    cases hget : g.cells.getLast? with
    | none => simp
    | some w => simpa using (hkind w (List.mem_of_getLast? hget)).1
  have hall : ((sectionsNamed epoch g).cells.length < 40 ∧
      ∀ c ∈ (sectionsNamed epoch g).cells, isErase c = true) ↔
        g.cells.length < 40 ∧ ∀ w ∈ g.cells, w.toNat / 4096 = 4 := by
    rw [sectionsNamed, ← hcells, List.length_map, List.forall_mem_map]
    exact and_congr_right fun _ => forall₂_congr fun w hw => (hkind w hw).2
  have hspans : (sectionsNamed epoch g).spans.getLast? = g.spans.getLast?.map spanNamed := by
    rw [sectionsNamed, List.getLast?_map]
  have hfinal : ∀ p : Word × Word,
      ((g.groups.map Prod.fst).map idNamed).getLast? = some (idNamed p.1) ↔
        ((g.groups.map Prod.fst).map nameOf).getLast? = some (nameOf p.1) := fun p => by
    simp only [List.getLast?_map, Option.map_eq_some_iff, idNamed_inj]
  rw [hlast, hall, hspans, tailPasses, groupIds_sectionsNamed, groupNames_eq]
  cases g.spans.getLast? with
  | none => simp
  | some p => simp only [Option.map_some, Option.mem_some_iff, forall_eq', spanNamed, mem_idNamed, hfinal]

/-! ### Stack references -/

theorem liveTag_iff (w : Word) : liveTag (tagOfCode (w.extractLsb' 13 3)) = true ↔ w.toNat / 8192 ≤ 4 := by
  have hw := w.isLt
  have hcode : (w.extractLsb' 13 3).toNat = w.toNat / 8192 := by
    simp only [BitVec.extractLsb'_toNat, Nat.shiftRight_eq_div_pow]
    omega
  have hlt : w.toNat / 8192 < 8 := by omega
  rw [tagOfCode, hcode]
  generalize w.toNat / 8192 = n at hlt
  interval_cases n <;> simp [liveTag]

theorem entries_iff (epoch : Byte) (g : Division) :
    ((∀ en ∈ (sectionsNamed epoch g).stackA, en.id.lane = .a) ∧
      (∀ en ∈ (sectionsNamed epoch g).stackB, en.id.lane = .b) ∧
      ∀ en ∈ (sectionsNamed epoch g).stackA ++ (sectionsNamed epoch g).stackB, liveTag en.tag = true →
        en.id ∈ tokenIds (sectionsNamed epoch g) ++ (sectionsNamed epoch g).groups.map (·.id) ++
          (sectionsNamed epoch g).spans.map (·.id)) ↔ stacksPass g := by
  have hlaneB : ∀ w : Word, (idNamed w).lane = .b ↔ 4096 ≤ nameOf w := fun w => by
    rw [← not_lt, ← idNamed_lane]
    cases (idNamed w).lane <;> simp
  rw [tokenIds_sectionsNamed, groupIds_sectionsNamed, spanIds_sectionsNamed, stacksPass,
    tokenNames_eq, groupNames_eq, spanNames_eq]
  simp only [sectionsNamed, ← List.map_append, List.forall_mem_map, entryNamed, idNamed_lane, hlaneB,
    liveTag_iff, mem_idNamed]

/-! ### Every check -/

theorem imageLayout_eq (ws : List Word) : imageLayout ws =
    ⟨numberAt ws 15 / 4096, numberAt ws 15 / 256 % 16, numberAt ws 15 % 256, numberAt ws 16 / 256⟩ := by
  have htop : ∀ w : Word, field w 12 4 = w.toNat / 4096 := fun w => by
    have := w.isLt
    rw [field_eq]
    omega
  have hhigh : ∀ w : Word, field w 8 8 = w.toNat / 256 := fun w => by
    have := w.isLt
    rw [field_eq]
    omega
  have hmid : ∀ w : Word, field w 8 4 = w.toNat / 256 % 16 := fun w => field_eq w 8 4
  have hlow : ∀ w : Word, field w 0 8 = w.toNat % 256 := fun w => by simp [field_eq]
  simp only [imageLayout, htop, hmid, hlow, hhigh, numberAt]

/-- What R173 asks of a division, besides its counts. -/
def partsPass (ws : List Word) (g : Division) : Prop :=
  recordsPass g ∧ identitiesPass g ∧ layoutPasses ws ∧ cellsPass g ∧ rowPasses ws g ∧ tailPasses g ∧
    stacksPass g ∧ cuesPass g

theorem sectionsPass_iff {epoch : Byte} {ws : List Word} {g : Division} (h : readable g) :
    SectionsPass (imageLayout ws) (sectionsNamed epoch g) ↔ partsPass ws g := by
  obtain ⟨hnames, hnamed, hcues⟩ := h
  have hlanes : ((∀ t ∈ (sectionsNamed epoch g).queueA, t.id.lane = .a) ∧
      ∀ t ∈ (sectionsNamed epoch g).queueB, t.id.lane = .b) ↔
        (∀ r ∈ g.queueA, nameOf (r.getD 1 0) < 4096) ∧ ∀ r ∈ g.queueB, 4096 ≤ nameOf (r.getD 1 0) := by
    have hlaneB : ∀ w : Word, (idNamed w).lane = .b ↔ 4096 ≤ nameOf w := fun w => by
      rw [← not_lt, ← idNamed_lane]
      cases (idNamed w).lane <;> simp
    simp only [sectionsNamed, List.forall_mem_map, tokenNamed, idNamed_lane, hlaneB]
  have hgroups : (∀ r ∈ (sectionsNamed epoch g).groups, r.taken < r.composed ∧ r.composed ≤ 33) ↔
      ∀ p ∈ g.groups, p.2.toNat % 64 < p.2.toNat / 256 % 64 ∧ p.2.toNat / 256 % 64 ≤ 33 := by
    simp only [sectionsNamed, List.forall_mem_map, groupNamed]
  have hrow : ((sectionsNamed epoch g).cursor ≤ (imageLayout ws).width ∧
      (sectionsNamed epoch g).cursor = ((sectionsNamed epoch g).spans.map (·.columns)).sum ∧
        ∀ sp ∈ (sectionsNamed epoch g).spans, 1 ≤ sp.columns) ↔ rowPasses ws g := by
    simp only [imageLayout_eq, rowPasses, sectionsNamed, List.map_map, Function.comp_def, spanNamed,
      List.forall_mem_map]
  have hlayout : layoutValid (imageLayout ws) = true ↔ layoutPasses ws := by
    rw [imageLayout_eq, layoutValid_eq, layoutPasses]
  constructor
  · intro hs
    exact ⟨⟨hnames, hlanes.mp hs.lanes⟩, (identities_iff epoch g).mp hs.identities,
      hlayout.mp hs.layout, ⟨hnamed, hgroups.mp hs.groups, hs.runs⟩, hrow.mp hs.row,
      (tail_iff epoch hnamed).mp hs.tail, (entries_iff epoch g).mp hs.entries, hcues⟩
  · rintro ⟨⟨-, hl⟩, hids, hlay, ⟨-, hgs, hruns⟩, hr, ht, hst, -⟩
    exact ⟨hlanes.mpr hl, (identities_iff epoch g).mpr hids, hlayout.mpr hlay, hgroups.mpr hgs, hruns,
      hrow.mpr hr, (tail_iff epoch hnamed).mpr ht, (entries_iff epoch g).mpr hst⟩

theorem headerOk_iff (b : ImageBuffer) : headerOk b = true ↔ headerPasses b := by
  have hformat : b.words.getD 0 0 = formatWord ↔ numberAt b.words 0 = 0x4A31 := by
    rw [← BitVec.toNat_inj]
    rfl
  have hsum : wordSum b.words = 0 ↔ (b.words.map (·.toNat)).sum % 65536 = 0 := by
    rw [← BitVec.toNat_inj, Words.wordSum_toNat]
    rfl
  simp only [headerOk, Bool.and_eq_true, beq_iff_eq, hformat, Bool.not_eq_true', decide_eq_true_eq,
    hsum, headerPasses, numberAt, and_assoc]

theorem countsOk_iff {ws : List Word} {g : Division} (h : divides ws g) :
    countsOk (countsOf ws) = true ↔ countsPass g := by
  obtain ⟨-, ⟨hqa, hqb, hsched, hcells, hgroups, hspans, hcues⟩, -⟩ := h
  simp only [countsOk, countsOf_eq, Bool.and_eq_true, decide_eq_true_eq, countsPass, hqa, hqb, hsched,
    hcells, hgroups, hspans, hcues, and_assoc]

/-- An image is loaded exactly where it passes every check of R173, and is read as it is divided. -/
theorem validImage_eq_some_iff (epoch : Byte) (b : ImageBuffer) (S : ImageSections) :
    validImage epoch b = some S ↔ headerPasses b ∧ ∃ g, divides b.words g ∧ countsPass g ∧
      partsPass b.words g ∧ S = sectionsNamed epoch g := by
  have hparts : ∀ g, partsPass b.words g → readable g := by
    rintro g ⟨⟨hnames, -⟩, -, -, ⟨hnamed, -⟩, -, -, -, hcues⟩
    exact ⟨hnames, hnamed, hcues⟩
  have hunfold : validImage epoch b = some S ↔ (headerOk b = true ∧ countsOk (countsOf b.words) = true) ∧
      readSections epoch (countsOf b.words) ((b.words.drop 24).dropLast) = some S ∧
        sectionsOk (imageLayout b.words) S = true := by
    unfold validImage
    rw [← Bool.and_eq_true]
    split_ifs with hok
    · cases readSections epoch (countsOf b.words) ((b.words.drop 24).dropLast) with
      | none => simp
      | some S' =>
        simp only [hok, true_and, Option.ite_none_right_eq_some, Option.some.injEq]
        constructor
        · rintro ⟨h, rfl⟩
          exact ⟨rfl, h⟩
        · rintro ⟨rfl, h⟩
          exact ⟨h, rfl⟩
    · simp [hok]
  rw [hunfold, headerOk_iff, readSections_eq_some_iff, and_assoc]
  refine and_congr_right fun _ => ?_
  constructor
  · rintro ⟨hcounts, ⟨g, hdivides, hreadable, rfl⟩, hsections⟩
    exact ⟨g, hdivides, (countsOk_iff hdivides).mp hcounts,
      (sectionsPass_iff hreadable).mp ((sectionsOk_iff _ _).mp hsections), rfl⟩
  · rintro ⟨g, hdivides, hcounts, hpass, rfl⟩
    exact ⟨(countsOk_iff hdivides).mpr hcounts, ⟨g, hdivides, hparts g hpass, rfl⟩,
      (sectionsOk_iff _ _).mpr ((sectionsPass_iff (hparts g hpass)).mpr hpass)⟩

/-! ### The commit -/

theorem exec_restoreCommit {s t : State} {r : Result} (tag : Byte) (hlow : s.resetLow = false)
    (h : commitRestore s = (t, r)) : exec (.restoreCommit tag []) s = .next (answered 0x0E tag r t) :=
  exec_of_countAccepted (d := .restoreCommit) tag hlow rfl h

theorem layoutSpans_named (start : Nat) (ps : List (Word × Word)) :
    layoutSpans start (ps.map spanNamed) = laidOut start ps := by
  induction ps generalizing start with
  | nil => rfl
  | cons p rest ih =>
    simp only [List.map_cons, layoutSpans, laidOut, ih]
    rfl

/-- The load sets the window, the cues and the settings, and keeps the rest (R174). -/
theorem loadSections_named (ws : List Word) (g : Division) (s : State) :
    let t := loadSections ws (sectionsNamed s.timebase.epoch g) s
    loadsSettings ws t ∧ t.composer = loadedComposer ws g ∧
      t.cues = g.cues.map (cueNamed s.timebase.epoch) := by
  have hsix : field (ws.getD 14 0) 13 3 = numberAt ws 14 / 8192 := by
    have := (ws.getD 14 0).isLt
    rw [field_eq, numberAt]
    omega
  have hlead : field (ws.getD 14 0) 9 4 = numberAt ws 14 / 512 % 16 := field_eq _ 9 4
  have hhorizon : field (ws.getD 14 0) 0 9 = numberAt ws 14 % 512 := by
    rw [field_eq, numberAt]
    omega
  refine ⟨⟨rfl, rfl, rfl, rfl, rfl, rfl, ?_, ?_, ?_⟩, ?_, rfl⟩
  · simp only [loadSections, loadRetiming, hsix]
  · simp only [loadSections, loadRetiming, hlead]
  · simp only [loadSections, loadRetiming, hhorizon]
  · simp only [loadSections, imageLayout_eq, sectionsNamed, layoutSpans_named, loadedComposer]

/-- The run that follows a load moves none of the settings. -/
theorem loadsSettings_admissionRun {ws : List Word} {t : State} (h : loadsSettings ws t) :
    loadsSettings ws (admissionRun t) := by
  have hrest := FrameEvents.besidesPipeline_admissionRun t
  have hkept : ∀ {u v : State}, FrameEvents.besidesPipeline u = FrameEvents.besidesPipeline v →
      loadsSettings ws v → loadsSettings ws u := by
    intro u v huv hv
    have hview : loadsSettings ws (FrameEvents.besidesPipeline v) := hv
    rw [← huv] at hview
    exact hview
  exact hkept hrest h

/-- The run that follows a load leaves the parsers, the next serials and the maximum lateness. -/
theorem admissionRun_rest (t : State) :
    (admissionRun t).retiming.maxLateness = t.retiming.maxLateness ∧
      (admissionRun t).laneA.nextSerial = t.laneA.nextSerial ∧
      (admissionRun t).laneB.nextSerial = t.laneB.nextSerial := by
  have hrest := FrameEvents.besidesPipeline_admissionRun t
  exact ⟨congrArg (·.retiming.maxLateness) hrest, congrArg (·.laneA.nextSerial) hrest,
    congrArg (·.laneB.nextSerial) hrest⟩

theorem parserOf_admissionRun (r : Ring) (t : State) : parserOf r (admissionRun t) = parserOf r t := by
  have hrest := congrArg (parserOf r) (FrameEvents.besidesPipeline_admissionRun t)
  rcases r with (_ | _) | _ <;> exact hrest

theorem parserOf_answered (r : Ring) (code : BitVec 5) (tag : Byte) (v : Result) (t : State) :
    parserOf r (answered code tag v t) = parserOf r t := by
  rcases r with (_ | _) | _ <;> rfl

/-- Settles O56: the words are divided in one way, and pass every check or are refused. -/
theorem restoreCommitChecksTheImage : Obligations.RestoreCommitChecksTheImage := by
  intro s tag hlow none' bad ws
  have hcommit : ∀ {t r}, commitRestore s = (t, r) →
      exec (.restoreCommit tag []) s = .next (answered 0x0E tag r t) := exec_restoreCommit tag hlow
  have hbad (hfill : s.image.state = .filling) (h : ∀ S, validImage s.timebase.epoch s.image ≠ some S) :
      exec (.restoreCommit tag []) s = .next bad := by
    refine hcommit ?_
    rw [commitRestore, if_neg (not_not_intro hfill), Option.eq_none_iff_forall_ne_some.mpr h]
    rfl
  refine ⟨fun hfill => hcommit (if_pos hfill), fun hfill hheader => hbad hfill fun S hS => ?_,
    fun hfill hnone => hbad hfill fun S hS => ?_, fun g hfill hdivides hfails => hbad hfill fun S hS => ?_,
    fun g hfill hheader hdivides hcounts hrecords hids hlayout hcells hrow htail hstacks hcues => ?_⟩
  · exact hheader ((validImage_eq_some_iff _ _ _).mp hS).1
  · obtain ⟨-, g, hdivides, -⟩ := (validImage_eq_some_iff _ _ _).mp hS
    exact hnone g hdivides
  · obtain ⟨-, g', hdivides', hcounts, hparts, -⟩ := (validImage_eq_some_iff _ _ _).mp hS
    obtain rfl := divides_unique hdivides hdivides'
    obtain ⟨hrecords, hids, hlayout, hcells, hrow, htail, hstacks, hcues⟩ := hparts
    tauto
  · have hvalid := (validImage_eq_some_iff s.timebase.epoch s.image _).mpr
      ⟨hheader, g, hdivides, hcounts, ⟨hrecords, hids, hlayout, hcells, hrow, htail, hstacks, hcues⟩, rfl⟩
    have hdone : commitRestore s =
        (admissionRun (loadSections ws (sectionsNamed s.timebase.epoch g) s), .done) := by
      rw [commitRestore, if_neg (not_not_intro hfill), hvalid]
    obtain ⟨hsettings, hcomposer, hcuesLoaded⟩ := loadSections_named ws g s
    have hparser : ∀ r, parserOf r (loadSections ws (sectionsNamed s.timebase.epoch g) s) =
        parserOf r s := fun r => by
      rcases r with (_ | _) | _ <;> rfl
    refine ⟨_, hcommit hdone, ?_, loadsSettings_admissionRun hsettings, ?_, ?_, ?_, ?_, ?_, ?_, ?_, ?_,
      ?_, fun r => (parserOf_answered r _ _ _ _).trans ((parserOf_admissionRun r _).trans (hparser r)),
      ?_, ?_, ?_⟩
    all_goals
      simp only [answered, admissionRun_frame, admissionRun_rest, hcomposer, hcuesLoaded] <;> rfl

end Sys2Proof.Images
end

section
/-! SUPPORT. What every move keeps of the ranges, settled: settings, timebase, floor, service state and
SRAM (R10, R15, R37, R43, R53, R73, R131, R164, R165). -/

namespace Sys2Proof.Moves

open Sys2Proof.Machine Sys2Proof.Expect Sys2Proof.Safety Sys2Proof.ProgrammeTime
  Sys2Proof.FloorAndHandoff Sys2Proof.Effects Sys2Proof.Directives Sys2Proof.Schedules
  Sys2Proof.FrameEvents Sys2Proof.Records Sys2Proof.Corrections Sys2Proof.Emissions
  Sys2Proof.Images

/-! ### Ranges through the moves -/

theorem rangeView_setLane (x : Lane) (l : LaneState) (s : State) (h : lagsOf l = lagsOf (laneOf x s)) :
    rangeView (setLane x l s) = rangeView s := by
  cases x <;> simp only [rangeView, setLane, h, laneOf]

theorem rangeView_released (k : Token) (rest : List Token) (s : State) :
    rangeView (released k rest s) = rangeView s := by
  rw [released]
  generalize composition k s.composer.cursor s.composer.layout.width = g
  obtain ⟨roll, cs⟩ := g
  cases roll <;> rfl

theorem rangeView_shedHead (x : Lane) (s : State) : rangeView (shedHead x s) = rangeView s := by
  unfold shedHead
  split
  · rfl
  · next t rest _ =>
    rw [notice_eq_noticed]
    cases x <;> rfl

/-- The ranges speak of what the pipeline's moves leave alone, and of the floor. -/
theorem rangeView_eq (s : State) :
    rangeView s = { rangeView (besidesPipeline s) with floor := s.floor } := rfl

theorem rangeView_clearWindow (s : State) : rangeView (clearWindow s) = rangeView s := by
  have hfloor : (clearWindow s).floor = s.floor := by simp
  rw [rangeView_eq, besidesPipeline_clearWindow, hfloor]
  rfl

theorem undoLast_layout (sp : Span) (s : State) :
    (undoLast sp s).composer.layout = s.composer.layout := by
  have hremoved : (removeGroup sp.id s.composer).layout = s.composer.layout := by
    unfold removeGroup
    split <;> rfl
  unfold undoLast
  dsimp only
  split_ifs
  · exact hremoved
  · exact hremoved

theorem rangeView_undoLast (sp : Span) (s : State) : rangeView (undoLast sp s) = rangeView s := by
  simp only [rangeView, undoLast_frame, undoLast_layout]

/-! ### The take: only the maximum lateness moves -/

theorem maxLateness_measured (counts : Option (Frame × Frame)) {s : State}
    (h : s.retiming.maxLateness ≤ 65535) : (measured counts s).retiming.maxLateness ≤ 65535 := by
  unfold measured
  split
  · exact h
  · exact max_le h (Nat.min_le_right _ _)

theorem maxLateness_takeGroupCell (k : Nat) {s : State} (h : s.retiming.maxLateness ≤ 65535) :
    (takeGroupCell k s).retiming.maxLateness ≤ 65535 := by
  cases hgroups : s.composer.groups with
  | nil => simpa only [takeGroupCell, hgroups] using h
  | cons g rest =>
    have hbegun : (begun g s).retiming = s.retiming := by
      unfold begun
      split <;> rfl
    rw [takeGroupCell_eq hgroups]
    split_ifs
    · exact (congrArg (·.maxLateness) hbegun).trans_le h
    · rw [completeGroup_eq]
      exact maxLateness_measured _ ((congrArg (·.maxLateness) hbegun).trans_le h)

theorem ranges_take {s : State} {c : Cell} {rest : List Cell} (hcells : s.composer.cells = c :: rest) :
    Ranges s (takeCells 1 s) := by
  have hview : rangeView { takeCells 1 s with retiming := s.retiming } = rangeView s := by
    rw [takeCells_eq]
    rfl
  have hlate : s.retiming.maxLateness ≤ 65535 → (takeCells 1 s).retiming.maxLateness ≤ 65535 := by
    intro h
    rw [takeCells_succ hcells]
    dsimp only [takeCells]
    split_ifs
    · exact maxLateness_takeGroupCell _ h
    · exact h
  have hkept := Ranges.of_view hview
  rw [takeCells_eq] at hkept hlate ⊢
  refine ⟨fun h => ?_, hkept.timebase, hkept.floor, hkept.service, hkept.cueCount, hkept.cueTargets,
    hkept.sram⟩
  obtain ⟨hdt, hde, hat, hae, hbt, hbe, hlead, hlow, hhigh, hmax, hlayout⟩ := h
  exact ⟨hdt, hde, hat, hae, hbt, hbe, hlead, hlow, hhigh, hlate hmax, hlayout⟩

/-! ### A restore commit clamps what it loads (R37, R43, R144) -/

theorem floorHolds_loadFloor (code : Nat) (timer : Word) (s : State) :
    FloorHolds { s with floor := loadFloor code timer } := by
  show (loadFloor code timer).timer ≤ 250 ∧
    (passTarget (loadFloor code timer).state = none → (loadFloor code timer).timer = 0)
  unfold loadFloor
  split
  · exact ⟨Nat.zero_le _, fun _ => rfl⟩
  · exact ⟨Nat.min_le_right _ _, nofun⟩
  · exact ⟨Nat.min_le_right _ _, nofun⟩
  · exact ⟨Nat.zero_le _, fun _ => rfl⟩

theorem numberAt_lt (r : List Word) (i : Nat) : numberAt r i < 65536 := (r.getD i 0).isLt

theorem ranges_load {s : State} {S : ImageSections}
    (hvalid : validImage s.timebase.epoch s.image = some S) :
    Ranges s (loadSections s.image.words S s) := by
  obtain ⟨-, g, hdivides, hcounts, hparts, rfl⟩ := (validImage_eq_some_iff _ _ _).mp hvalid
  obtain ⟨-, -, hlayout, -⟩ := hparts
  obtain ⟨-, -, -, -, -, -, hcues⟩ := hcounts
  refine ⟨fun h => ?_, fun h => ?_, fun _ => floorHolds_loadFloor _ _ s, fun h => ⟨fun _ => rfl, rfl⟩,
    fun _ => ?_, fun _ q hq => ?_, id⟩
  · obtain ⟨-, -, -, -, -, -, -, -, -, hmax, -⟩ := h
    refine ⟨Nat.min_le_right _ _, Nat.min_le_right _ _, Nat.min_le_right _ _, Nat.min_le_right _ _,
      Nat.min_le_right _ _, Nat.min_le_right _ _, Nat.min_le_right _ _, Nat.le_max_left _ _, ?_, hmax, ?_⟩
    · exact max_le (by decide) (Nat.min_le_right _ _)
    · show layoutValid (imageLayout s.image.words) = true
      rw [imageLayout_eq, layoutValid_eq]
      exact hlayout
  · obtain ⟨-, hn, hmoments⟩ := h
    exact ⟨slewPeriod_pos _, hn, hmoments⟩
  · exact (List.length_map _).trans_le hcues
  · obtain ⟨r, -, rfl⟩ := List.mem_map.mp hq
    have hlow := numberAt_lt r 1
    have hhigh := numberAt_lt r 2
    simp only [cueNamed]
    omega

/-! ### Every move -/

theorem ranges_passed (x : Lane) (s : State) : Ranges s (passed x s) := by
  have hview : rangeView { passed x s with floor := s.floor } = rangeView s := by cases x <;> rfl
  have hkept := Ranges.of_view hview
  refine ⟨hkept.settings, hkept.timebase, fun _ => ?_, hkept.service, hkept.cueCount, hkept.cueTargets,
    hkept.sram⟩
  rw [FloorHolds, FrameEvents.passed_floor]
  exact ⟨Nat.zero_le _, fun _ => rfl⟩

theorem ranges_laid {l : Layout} (hvalid : layoutValid l = true) (s : State) : Ranges s (laid l s) := by
  have hkept : Ranges s { laid l s with composer := { (laid l s).composer with layout := s.composer.layout } } :=
    .of_view rfl
  refine ⟨fun h => ?_, hkept.timebase, hkept.floor, hkept.service, hkept.cueCount, hkept.cueTargets,
    hkept.sram⟩
  obtain ⟨hdt, hde, hat, hae, hbt, hbe, hlead, hlow, hhigh, hmax, -⟩ := h
  exact ⟨hdt, hde, hat, hae, hbt, hbe, hlead, hlow, hhigh, hmax, hvalid⟩

theorem ranges_restart (s : State) : Ranges s (restart s) :=
  ⟨id, id, fun _ => ⟨Nat.zero_le _, fun _ => rfl⟩, fun _ => ⟨fun _ => rfl, rfl⟩,
    fun _ => Nat.zero_le _, fun _ _ hq => absurd hq List.not_mem_nil, id⟩

theorem ranges_atRelease (span : BitVec 5) (rate : BitVec 2) :
    SettingsHold (State.atRelease span rate) ∧ TimebaseHolds (State.atRelease span rate) ∧
      FloorHolds (State.atRelease span rate) ∧ ServiceHolds (State.atRelease span rate) :=
  have hsettings : SettingsHold (State.atRelease 0 0) := by decide
  have hfloor : FloorHolds (State.atRelease 0 0) := by decide
  ⟨hsettings, ⟨slewPeriod_pos _, dayLength_pos _, rfl⟩, hfloor, ⟨fun _ => rfl, rfl⟩⟩

theorem ranges_reset (span : BitVec 5) (rate : BitVec 2) (s : State) :
    Ranges s (afterRelease span rate s) := by
  obtain ⟨hsettings, htimebase, hfloor, hservice⟩ := ranges_atRelease span rate
  exact ⟨fun _ => hsettings, fun _ => htimebase, fun _ => hfloor, fun _ => hservice,
    fun _ => Nat.zero_le _, fun _ _ hq => absurd hq List.not_mem_nil, id⟩

theorem Move.ranges {s₀ s t : State} (h : Move s₀ s t) : Ranges s t := by
  cases h with
  | aside h => exact h.ranges
  | queued x => exact .of_view (rangeView_setLane _ _ _ (by cases x <;> rfl))
  | shed x => exact .of_view (rangeView_shedHead x s)
  | entered x => cases x <;> exact .of_view rfl
  | passed x => exact ranges_passed x s
  | discarded => exact .of_view rfl
  | released k rest => exact .of_view (rangeView_released k rest s)
  | flushed x => cases x <;> exact .of_view rfl
  | laid l hvalid => exact ranges_laid hvalid s
  | cleared => exact .of_view (rangeView_clearWindow s)
  | forgotten x => cases x <;> exact .of_view rfl
  | recalled x => cases x <;> exact .of_view rfl
  | unscheduled x => cases x <;> exact .of_view rfl
  | undone x en rest left sp =>
    refine .of_view ((rangeView_undoLast sp _).trans ?_)
    cases x <;> rfl
  | taken c rest hcells => exact ranges_take hcells
  | restarted => exact ranges_restart s
  | reset span rate => exact ranges_reset span rate s
  | loaded S _ _ _ _ hvalid => exact ranges_load hvalid

/-- Settles O58: every range move by move. -/
theorem everyStepKeepsRanges : Obligations.EveryStepKeepsRanges := by
  refine ⟨fun s t hs h => ?_, fun s t hs h => ?_, fun s t hs h => ?_, fun s t hs h => ?_,
    fun s t hs h => ?_⟩
  · exact step_keeps h hs (fun _ _ hu => hu) fun _ _ _ _ _ hu huv => huv.ranges.sram hu
  · exact step_keeps h hs (fun _ _ hu => hu) fun _ _ _ _ _ hu huv => huv.ranges.settings hu
  · exact step_keeps h hs (fun _ _ hu => hu) fun _ _ _ _ _ hu huv => huv.ranges.timebase hu
  · exact step_keeps h hs (fun _ _ hu => hu) fun _ _ _ _ _ hu huv => huv.ranges.floor hu
  · exact step_keeps h hs (fun _ _ hu => hu) fun _ _ _ _ _ hu huv => huv.ranges.service hu

end Sys2Proof.Moves
end

section
/-! SUPPORT. What every move keeps of the pipeline's order (R30, R32, R57, R73, R76, R79, R94): rooms,
texts, the row, the group records and the identities. -/

namespace Sys2Proof.Moves

open Sys2Proof.Machine Sys2Proof.Expect Sys2Proof.Safety Sys2Proof.ProgrammeTime
  Sys2Proof.FloorAndHandoff Sys2Proof.Effects Sys2Proof.Directives Sys2Proof.Schedules
  Sys2Proof.FrameEvents Sys2Proof.Records Sys2Proof.Corrections Sys2Proof.Emissions
  Sys2Proof.Images

/-! ### The pipeline in order, lane by lane -/

/-- The queue of a lane. -/
def Line.queue (l : Line) (x : Lane) : List Token :=
  match x with
  | .a => l.queueA
  | .b => l.queueB

/-- The stack of a lane. -/
def Line.stack (l : Line) (x : Lane) : List StackEntry :=
  match x with
  | .a => l.stackA
  | .b => l.stackB

theorem lineOf_queue (x : Lane) (s : State) : (lineOf s).queue x = (laneOf x s).queue := by
  cases x <;> rfl

theorem lineOf_stack (x : Lane) (s : State) : (lineOf s).stack x = (laneOf x s).stack := by
  cases x <;> rfl

/-- The identities of group records and of spans. -/
def groupNamesOf (c : Composer) : List TokenId := c.groups.map (·.id)

def spanNamesOf (c : Composer) : List TokenId := c.spans.map (·.id)

/-- The row composer in order (R73, R76, R79). -/
structure ComposerHolds (c : Composer) : Prop where
  layout : layoutValid c.layout = true
  cursor : c.cursor = (c.spans.map (·.columns)).sum
  width : c.cursor ≤ c.layout.width
  columns : ∀ sp ∈ c.spans, 1 ≤ sp.columns
  taken : ∀ g ∈ c.groups, g.taken < g.composed
  cells : (c.groups.map untaken).sum = (c.cells.filter isGroupCell).length
  room : c.groups.length ≤ 64
  groupIds : (groupNamesOf c).Nodup
  spanIds : (spanNamesOf c).Nodup

/-- The pipeline in order. -/
structure LineHolds (l : Line) : Prop where
  composer : ComposerHolds l.composer
  queueRoom : ∀ x, (l.queue x).length ≤ 48
  scheduleRoom : l.schedule.length ≤ 96
  stackRoom : ∀ x, (l.stack x).length ≤ 8
  queueText : ∀ x, ∀ k ∈ l.queue x, textHolds k = true ∧ k.id.lane = x
  scheduleText : ∀ k ∈ l.schedule, textHolds k = true
  queueIds : ∀ x, ((l.queue x).map (·.id)).Nodup
  scheduleIds : (l.schedule.map (·.id)).Nodup
  queueFresh : ∀ x, ∀ k ∈ l.queue x, k.id ∉ l.schedule.map (·.id) ∧
    k.id ∉ groupNamesOf l.composer ∧ k.id ∉ spanNamesOf l.composer
  scheduleFresh : ∀ k ∈ l.schedule, k.id ∉ groupNamesOf l.composer ∧ k.id ∉ spanNamesOf l.composer
  stackIds : ∀ x, ((l.stack x).map (·.id)).Nodup
  stackLane : ∀ x, ∀ en ∈ l.stack x, en.id.lane = x

theorem forall_lane {p : Lane → Prop} : (∀ x, p x) ↔ p .a ∧ p .b :=
  ⟨fun h => ⟨h .a, h .b⟩, fun ⟨ha, hb⟩ x => by cases x <;> assumption⟩

/-- Lists of either lane's identities share none. -/
theorem nodup_append_lanes {as bs : List TokenId} (ha : ∀ i ∈ as, i.lane = .a)
    (hb : ∀ i ∈ bs, i.lane = .b) : (as ++ bs).Nodup ↔ as.Nodup ∧ bs.Nodup := by
  rw [List.nodup_append]
  refine and_congr_right fun _ => and_iff_left fun i hi j hj heq => ?_
  have hlane := (ha i hi).symm.trans (heq ▸ hb j hj)
  cases hlane

/-- Identities of two lanes' queues, of the schedule and of a list of names are all different where
each list's are and no two lists share one. -/
theorem nodup_tokenIds {as bs cs names : List TokenId} (ha : ∀ i ∈ as, i.lane = .a)
    (hb : ∀ i ∈ bs, i.lane = .b) :
    (as ++ bs ++ cs ++ names).Nodup ↔ as.Nodup ∧ bs.Nodup ∧ cs.Nodup ∧ names.Nodup ∧
      (∀ i ∈ as, i ∉ cs ∧ i ∉ names) ∧ (∀ i ∈ bs, i ∉ cs ∧ i ∉ names) ∧ ∀ i ∈ cs, i ∉ names := by
  rw [List.nodup_append', List.nodup_append', nodup_append_lanes ha hb]
  simp only [List.Disjoint, List.mem_append, or_imp, forall_and]
  tauto

theorem pipelineHolds_iff (s : State) :
    PipelineHolds s ↔ LineHolds (lineOf s) ∧ s.cues.length ≤ 8 := by
  have hids (hta : ∀ k ∈ s.laneA.queue, k.id.lane = .a) (htb : ∀ k ∈ s.laneB.queue, k.id.lane = .b)
      (names : List TokenId) := nodup_tokenIds (as := s.laneA.queue.map (·.id))
        (bs := s.laneB.queue.map (·.id)) (cs := s.schedule.map (·.id)) (names := names)
        (List.forall_mem_map.mpr hta) (List.forall_mem_map.mpr htb)
  simp only [← List.map_append, List.forall_mem_map] at hids
  constructor
  · rintro ⟨hlayout, ⟨hqa, hqb, hsched, hsa, hsb, hcues⟩, ⟨hcursor, hwidth, hcols⟩,
      ⟨hta, htb, hts⟩, ⟨htaken, hsum, hroom⟩, hgroupIds, hspanIds, hentries, hla, hlb⟩
    obtain ⟨ha, hb, hs, hg, hag, hbg, hsg⟩ := (hids (fun k hk => (hta k hk).2)
      (fun k hk => (htb k hk).2) (groupIdsOf s)).mp hgroupIds
    obtain ⟨-, -, -, hsp, hasp, hbsp, hssp⟩ := (hids (fun k hk => (hta k hk).2)
      (fun k hk => (htb k hk).2) (spanIdsOf s)).mp hspanIds
    rw [entryIdsOf, List.map_append, nodup_append_lanes (List.forall_mem_map.mpr hla)
      (List.forall_mem_map.mpr hlb)] at hentries
    exact ⟨⟨⟨hlayout, hcursor, hwidth, hcols, htaken, hsum, hroom, hg, hsp⟩,
      forall_lane.mpr ⟨hqa, hqb⟩, hsched, forall_lane.mpr ⟨hsa, hsb⟩, forall_lane.mpr ⟨hta, htb⟩, hts,
      forall_lane.mpr ⟨ha, hb⟩, hs, forall_lane.mpr ⟨fun k hk => ⟨(hag k hk).1, (hag k hk).2,
        (hasp k hk).2⟩, fun k hk => ⟨(hbg k hk).1, (hbg k hk).2, (hbsp k hk).2⟩⟩,
      fun k hk => ⟨hsg k hk, hssp k hk⟩, forall_lane.mpr hentries, forall_lane.mpr ⟨hla, hlb⟩⟩, hcues⟩
  · rintro ⟨h, hcues⟩
    obtain ⟨hqa, hqb⟩ := forall_lane.mp h.queueRoom
    obtain ⟨hsa, hsb⟩ := forall_lane.mp h.stackRoom
    obtain ⟨hta, htb⟩ := forall_lane.mp h.queueText
    obtain ⟨ha, hb⟩ := forall_lane.mp h.queueIds
    obtain ⟨hfa, hfb⟩ := forall_lane.mp h.queueFresh
    obtain ⟨hla, hlb⟩ := forall_lane.mp h.stackLane
    have hc := h.composer
    have hids' := hids (fun k hk => (hta k hk).2) (fun k hk => (htb k hk).2)
    refine ⟨hc.layout, ⟨hqa, hqb, h.scheduleRoom, hsa, hsb, hcues⟩, ⟨hc.cursor, hc.width, hc.columns⟩,
      ⟨hta, htb, h.scheduleText⟩, ⟨hc.taken, hc.cells, hc.room⟩, ?_, ?_, ?_, hla, hlb⟩
    · exact (hids' (groupIdsOf s)).mpr ⟨ha, hb, h.scheduleIds, hc.groupIds,
        fun k hk => ⟨(hfa k hk).1, (hfa k hk).2.1⟩, fun k hk => ⟨(hfb k hk).1, (hfb k hk).2.1⟩,
        fun k hk => (h.scheduleFresh k hk).1⟩
    · exact (hids' (spanIdsOf s)).mpr ⟨ha, hb, h.scheduleIds, hc.spanIds,
        fun k hk => ⟨(hfa k hk).1, (hfa k hk).2.2⟩, fun k hk => ⟨(hfb k hk).1, (hfb k hk).2.2⟩,
        fun k hk => (h.scheduleFresh k hk).2⟩
    · rw [entryIdsOf, List.map_append]
      exact (nodup_append_lanes (List.forall_mem_map.mpr hla) (List.forall_mem_map.mpr hlb)).mpr
        (forall_lane.mp h.stackIds)

/-- Tokens, entries, groups and spans that only leave keep the pipeline in order. -/
theorem LineHolds.shrink {l l' : Line} (h : LineHolds l) (hcomposer : ComposerHolds l'.composer)
    (hqueue : ∀ x, (l'.queue x).Sublist (l.queue x)) (hschedule : l'.schedule.Sublist l.schedule)
    (hstack : ∀ x, ((l'.stack x).map (·.id)).Sublist ((l.stack x).map (·.id)))
    (hgroups : (groupNamesOf l'.composer) ⊆ groupNamesOf l.composer)
    (hspans : (spanNamesOf l'.composer) ⊆ spanNamesOf l.composer) : LineHolds l' where
  composer := hcomposer
  queueRoom x := (hqueue x).length_le.trans (h.queueRoom x)
  scheduleRoom := hschedule.length_le.trans h.scheduleRoom
  stackRoom x := by
    have := (hstack x).length_le.trans_eq (List.length_map _)
    rw [List.length_map] at this
    exact this.trans (h.stackRoom x)
  queueText x k hk := h.queueText x k ((hqueue x).subset hk)
  scheduleText k hk := h.scheduleText k (hschedule.subset hk)
  queueIds x := (h.queueIds x).sublist ((hqueue x).map _)
  scheduleIds := h.scheduleIds.sublist (hschedule.map _)
  queueFresh x k hk := by
    obtain ⟨hs, hg, hsp⟩ := h.queueFresh x k ((hqueue x).subset hk)
    exact ⟨fun hmem => hs ((hschedule.map _).subset hmem), fun hmem => hg (hgroups hmem),
      fun hmem => hsp (hspans hmem)⟩
  scheduleFresh k hk := by
    obtain ⟨hg, hsp⟩ := h.scheduleFresh k (hschedule.subset hk)
    exact ⟨fun hmem => hg (hgroups hmem), fun hmem => hsp (hspans hmem)⟩
  stackIds x := (h.stackIds x).sublist (hstack x)
  stackLane x en hen := by
    have hmem : en.id ∈ (l.stack x).map (·.id) := (hstack x).subset (List.mem_map_of_mem hen)
    obtain ⟨en', hen', hid⟩ := List.mem_map.mp hmem
    exact hid ▸ h.stackLane x en' hen'

end Sys2Proof.Moves
end

section
/-! SUPPORT. What each operation of the row composer keeps of its order (R73, R76, R79). -/

namespace Sys2Proof.Moves

open Sys2Proof.Machine Sys2Proof.Expect Sys2Proof.Safety Sys2Proof.ProgrammeTime
  Sys2Proof.FloorAndHandoff Sys2Proof.Effects Sys2Proof.Directives Sys2Proof.Schedules
  Sys2Proof.FrameEvents Sys2Proof.Records Sys2Proof.Corrections Sys2Proof.Emissions
  Sys2Proof.Images

/-! ### Rows closed, cells appended, windows cleared -/

/-- The row closed by a ROLL, or by a layout or CLEAR. -/
def emptied (c : Composer) : Composer := { c with cursor := 0, spans := [] }

theorem ComposerHolds.emptied {c : Composer} (h : ComposerHolds c) : ComposerHolds (emptied c) :=
  { h with cursor := rfl, width := Nat.zero_le _, columns := nofun, spanIds := List.nodup_nil }

theorem filter_isGroupCell_of_none {cs : List Cell} (h : ∀ x ∈ cs, isGroupCell x = false) :
    cs.filter isGroupCell = [] :=
  List.filter_eq_nil_iff.mpr fun x hx => by simp [h x hx]

/-- Cells of no group join the tail. -/
theorem ComposerHolds.appended {c : Composer} (h : ComposerHolds c) {cs : List Cell}
    (hcs : ∀ x ∈ cs, isGroupCell x = false) : ComposerHolds { c with cells := c.cells ++ cs } :=
  { h with
    cells := by
      rw [List.filter_append, filter_isGroupCell_of_none hcs, List.append_nil]
      exact h.cells }

theorem ComposerHolds.laid {c : Composer} (h : ComposerHolds c) {l : Layout}
    (hl : layoutValid l = true) :
    ComposerHolds { Moves.emptied c with layout := l, cells := c.cells ++ placePair l } :=
  { h.emptied.appended (cs := placePair l) (by simp [placePair, isGroupCell]) with
    layout := hl, width := Nat.zero_le _ }

/-- A composer with no group, no span and no group cell. -/
theorem composerHolds_of_empty {c : Composer} (hlayout : layoutValid c.layout = true)
    (hcells : ∀ x ∈ c.cells, isGroupCell x = false) (hgroups : c.groups = []) (hspans : c.spans = [])
    (hcursor : c.cursor = 0) : ComposerHolds c where
  layout := hlayout
  cursor := by simp [hspans, hcursor]
  width := hcursor ▸ Nat.zero_le _
  columns := by simp [hspans]
  taken := by simp [hgroups]
  cells := by simp [hgroups, filter_isGroupCell_of_none hcells]
  room := by simp [hgroups]
  groupIds := by simp [groupNamesOf, hgroups]
  spanIds := by simp [spanNamesOf, hspans]

theorem lastPlaceOf_subset (cs : List Cell) : lastPlaceOf cs ⊆ cs := by
  induction cs with
  | nil => simp [lastPlaceOf]
  | cons c rest ih =>
    rw [lastPlaceOf.eq_def]
    dsimp only
    split
    · cases rest with
      | nil => simp
      | cons d more => dsimp only; split <;> simp [List.subset_def]
    · exact List.subset_cons_of_subset _ ih

theorem keptPlace_subset (cs : List Cell) : keptPlace cs ⊆ cs := fun _ hx =>
  List.mem_reverse.mp (lastPlaceOf_subset _ hx)

/-! ### The composed cells of a release -/

/-- The row after the ROLL of a release. -/
def rolled (c : Composer) : Composer := { emptied c with cells := c.cells ++ [.roll] }

/-- The group of a release joins the tail, with its record and its span, where it has cells. -/
def joined (k : Token) (cs : List Cell) (c : Composer) : Composer :=
  { c with
    cells := c.cells ++ cs
    groups := c.groups ++ (if cs = [] then [] else [{ id := k.id, counts := some (k.speech, k.arrival),
                                                      composed := cs.length, taken := 0,
                                                      columnsTaken := 0 }])
    cursor := c.cursor + columns cs
    spans := c.spans ++
      (if cs = [] then [] else [{ id := k.id, start := c.cursor, columns := columns cs }]) }

theorem released_composer (k : Token) (rest : List Token) (s : State) :
    (released k rest s).composer =
      let g := composition k s.composer.cursor s.composer.layout.width
      joined k g.2 (if g.1 then rolled s.composer else s.composer) := by
  rw [released]
  generalize composition k s.composer.cursor s.composer.layout.width = g
  obtain ⟨roll, cs⟩ := g
  cases roll
  · simp only [joined, noticed, Bool.false_eq_true, if_false, List.append_nil]
  · rfl

theorem columns_append (cs ds : List Cell) : columns (cs ++ ds) = columns cs + columns ds := by
  simp [columns]

theorem columns_chars (bs : List Byte) : columns (bs.map Cell.char) = bs.length := by
  induction bs with
  | nil => rfl
  | cons b rest ih =>
    rw [List.map_cons, ← List.singleton_append, columns_append, ih, List.length_cons]
    exact Nat.add_comm _ _

theorem length_le_columns (cs : List Cell) : cs.length ≤ columns cs := by
  induction cs with
  | nil => exact le_refl _
  | cons c rest ih =>
    rw [← List.singleton_append, columns_append, List.length_append]
    have : 1 ≤ columns [c] := by
      simp only [columns, List.map_cons, List.map_nil, List.sum_cons, List.sum_nil]
      split <;> omega
    simp only [List.length_singleton]
    omega

/-- What a release composes fits on the row, behind the cursor or after a ROLL. -/
theorem composition_within {k : Token} {cursor width : Nat} (hwidth : 2 ≤ width)
    (hcursor : cursor ≤ width) :
    (if (composition k cursor width).1 then 0 else cursor) + columns (composition k cursor width).2 ≤
      width := by
  cases hkind : k.kind with
  | word =>
    simp only [composition, hkind]
    generalize (if 0 < cursor ∧ k.attach = false then 1 else 0) = sp
    split
    · rw [if_pos rfl, columns_chars, List.length_take]
      omega
    · next hfits =>
      have hspaces : ∀ n, columns (List.replicate n (Cell.char 0x20)) = n := fun n => by
        rw [← List.map_replicate, columns_chars, List.length_replicate]
      simp only [Bool.false_eq_true, if_false, columns_append, columns_chars, hspaces]
      omega
  | speaker =>
    have hmarker : columns [.marker] = 2 := rfl
    simp only [composition, hkind, decide_eq_true_eq, hmarker]
    split <;> omega
  | paragraph =>
    have hnone : columns [] = 0 := rfl
    simp only [composition, hkind, decide_eq_true_eq, hnone]
    split <;> omega

theorem ComposerHolds.rolled {c : Composer} (h : ComposerHolds c) : ComposerHolds (rolled c) :=
  h.emptied.appended (cs := [.roll]) (by simp [isGroupCell])

theorem length_le_sum_untaken {gs : List GroupRecord} (h : ∀ g ∈ gs, g.taken < g.composed) :
    gs.length ≤ (gs.map untaken).sum := by
  induction gs with
  | nil => exact le_refl _
  | cons g rest ih =>
    have hg := h g (by simp)
    have := ih fun k hk => h k (by simp [hk])
    simp only [List.length_cons, List.map_cons, List.sum_cons, untaken]
    omega

theorem ComposerHolds.joined {c : Composer} (h : ComposerHolds c) {k : Token} {cs : List Cell}
    (hcs : ∀ x ∈ cs, isGroupCell x = true) (hwidth : c.cursor + Expect.columns cs ≤ c.layout.width)
    (hroom : c.cells.length + cs.length ≤ 64) (hgroup : k.id ∉ groupNamesOf c)
    (hspan : k.id ∉ spanNamesOf c) : ComposerHolds (joined k cs c) := by
  by_cases hnil : cs = []
  · subst hnil
    have : Moves.joined k [] c = c := by simp [Moves.joined, Expect.columns]
    rwa [this]
  have hlen := List.length_pos_iff.mpr hnil
  have hjoined : Moves.joined k cs c = { c with
      cells := c.cells ++ cs
      groups := c.groups ++ [⟨k.id, some (k.speech, k.arrival), cs.length, 0, 0⟩]
      cursor := c.cursor + Expect.columns cs
      spans := c.spans ++ [⟨k.id, c.cursor, Expect.columns cs⟩] } := by
    simp only [Moves.joined, if_neg hnil]
  have htaken : ∀ g ∈ (Moves.joined k cs c).groups, g.taken < g.composed := by
    rw [hjoined]
    intro g hg
    rcases List.mem_append.mp hg with hg | hg
    · exact h.taken g hg
    · rw [List.mem_singleton.mp hg]
      exact hlen
  have hcells : ((Moves.joined k cs c).groups.map untaken).sum =
      ((Moves.joined k cs c).cells.filter isGroupCell).length := by
    rw [hjoined]
    simp [untaken, List.filter_append, List.filter_eq_self.mpr hcs, h.cells]
  refine ⟨?_, ?_, ?_, ?_, htaken, hcells, ?_, ?_, ?_⟩
  · exact h.layout
  · simp [hjoined, h.cursor]
  · exact hwidth
  · rw [hjoined]
    intro sp hsp
    rcases List.mem_append.mp hsp with hsp | hsp
    · exact h.columns sp hsp
    · rw [List.mem_singleton.mp hsp]
      exact Nat.le_trans hlen (length_le_columns cs)
  · calc (Moves.joined k cs c).groups.length ≤ _ := length_le_sum_untaken htaken
      _ = _ := hcells
      _ ≤ (Moves.joined k cs c).cells.length := List.length_filter_le _ _
      _ ≤ 64 := by simpa [hjoined] using hroom
  · simp only [hjoined, groupNamesOf, List.map_append, List.map_cons, List.map_nil]
    exact List.nodup_append'.mpr ⟨h.groupIds, List.nodup_singleton _, by simpa [groupNamesOf] using hgroup⟩
  · simp only [hjoined, spanNamesOf, List.map_append, List.map_cons, List.map_nil]
    exact List.nodup_append'.mpr ⟨h.spanIds, List.nodup_singleton _, by simpa [spanNamesOf] using hspan⟩

/-! ### A group removed -/

/-- A token's group record among the others, of other tokens. -/
theorem exists_of_groupOf {id : TokenId} {gs : List GroupRecord} {g : GroupRecord}
    (hids : (gs.map (·.id)).Nodup) (h : groupOf id gs = some g) :
    ∃ ahead behind, gs = ahead ++ g :: behind ∧ g.id = id ∧ ∀ k ∈ ahead ++ behind, k.id ≠ id := by
  obtain ⟨hg, ahead, behind, rfl, hahead⟩ := List.find?_eq_some_iff_append.mp h
  have hid : g.id = id := by simpa using hg
  rw [List.map_append, List.map_cons, List.nodup_middle, ← List.map_append, List.nodup_cons] at hids
  exact ⟨ahead, behind, rfl, hid, fun k hk heq =>
    hids.1 (List.mem_map.mpr ⟨k, hk, heq.trans hid.symm⟩)⟩

theorem count_dropGroupCells {skip drop : Nat} {cs : List Cell}
    (h : skip + drop ≤ (cs.filter isGroupCell).length) :
    ((dropGroupCells skip drop cs).filter isGroupCell).length =
      (cs.filter isGroupCell).length - drop := by
  induction cs generalizing skip drop with
  | nil => simp [dropGroupCells]
  | cons c rest ih =>
    by_cases hc : isGroupCell c = true
    · rw [List.filter_cons_of_pos hc, List.length_cons] at h ⊢
      simp only [dropGroupCells, if_pos hc]
      match skip, drop with
      | skip + 1, drop =>
        have := ih (skip := skip) (drop := drop) (by omega)
        simp only [List.filter_cons_of_pos hc, List.length_cons]
        omega
      | 0, 0 => simp only [List.filter_cons_of_pos hc, List.length_cons, Nat.sub_zero]
      | 0, drop + 1 =>
        have := ih (skip := 0) (drop := drop) (by omega)
        dsimp only
        omega
    · rw [List.filter_cons_of_neg hc] at h ⊢
      simp only [dropGroupCells, if_neg hc, List.filter_cons_of_neg hc]
      exact ih h

/-- A group record removed with its untaken cells, wherever they stand in the queue. -/
theorem ComposerHolds.removeGroup {c : Composer} (h : ComposerHolds c) (id : TokenId) :
    ComposerHolds (removeGroup id c) ∧ (Machine.removeGroup id c).groups ⊆ c.groups ∧
      (Machine.removeGroup id c).spans = c.spans ∧ (Machine.removeGroup id c).layout = c.layout := by
  rw [Machine.removeGroup]
  cases hfound : groupOf id c.groups with
  | none => exact ⟨h, List.Subset.refl _, rfl, rfl⟩
  | some g =>
    obtain ⟨ahead, behind, hgroups, hid, hothers⟩ := exists_of_groupOf h.groupIds hfound
    have hkept : c.groups.filter (fun k => k.id ≠ id) = ahead ++ behind := by
      rw [hgroups, List.filter_append, List.filter_cons_of_neg (by simpa using hid),
        ← List.filter_append]
      exact List.filter_eq_self.mpr fun k hk => by simpa using hothers k hk
    have hsub : (ahead ++ behind).Sublist c.groups := by
      rw [hgroups]
      exact List.Sublist.append_left (List.sublist_cons_self _ _) _
    have hahead : untakenAhead id c.groups = (ahead.map untaken).sum := by
      rw [hgroups]
      exact untakenAhead_append (fun k hk => hothers k (by simp [hk])) hid behind
    have htotal : (c.groups.map untaken).sum =
        (ahead.map untaken).sum + untaken g + (behind.map untaken).sum := by
      simp [hgroups, Nat.add_assoc]
    have hcells := h.cells
    simp only [hkept, hahead]
    exact ⟨{ h with
      taken := fun k hk => h.taken k (hsub.subset hk)
      cells := by
        rw [count_dropGroupCells (by omega), List.map_append, List.sum_append]
        omega
      room := hsub.length_le.trans h.room
      groupIds := h.groupIds.sublist (hsub.map _) }, hsub.subset, trivial, trivial⟩

theorem undone_composer (sp : Span) (s : State) : (undoLast sp s).composer =
    { removeGroup sp.id s.composer with
      cells := (removeGroup sp.id s.composer).cells ++
        (if takenColumns sp s.composer = 0 then [] else [.erase (takenColumns sp s.composer)])
      cursor := (removeGroup sp.id s.composer).cursor - sp.columns
      spans := (removeGroup sp.id s.composer).spans.dropLast } := by
  simp only [undoLast]
  split
  · simp
  · rw [appendCells_eq (by simp)]

/-- The last span undone. -/
theorem ComposerHolds.undone {s : State} (h : ComposerHolds s.composer) {left : List Span} {sp : Span}
    (hspans : s.composer.spans = left ++ [sp]) : ComposerHolds (undoLast sp s).composer ∧
      (undoLast sp s).composer.groups ⊆ s.composer.groups ∧
      (undoLast sp s).composer.spans = left := by
  obtain ⟨hremoved, hsub, hspans', hlayout⟩ := h.removeGroup sp.id
  have hcomposer := undone_composer sp s
  have happended := hremoved.appended (cs := if takenColumns sp s.composer = 0 then []
    else [.erase (takenColumns sp s.composer)]) (by split <;> simp [isGroupCell])
  generalize Machine.removeGroup sp.id s.composer = c at *
  have hlast : c.spans.dropLast = left := by rw [hspans', hspans, List.dropLast_concat]
  rw [hspans] at hspans'
  have hcursor : c.cursor - sp.columns = (left.map (·.columns)).sum := by
    rw [hremoved.cursor, hspans']
    simp
  rw [hcomposer, hlast, hcursor]
  have hwidth := hremoved.width
  rw [hremoved.cursor, hspans', List.map_append, List.sum_append] at hwidth
  refine ⟨{ happended with
    cursor := rfl
    width := by dsimp only; omega
    columns := fun q hq => hremoved.columns q (by simp [hspans', hq])
    spanIds := ?_ }, hsub, rfl⟩
  have := hremoved.spanIds
  rw [spanNamesOf, hspans', List.map_append] at this
  exact (List.nodup_append'.mp this).1

/-! ### Cells taken -/

/-- The group table after a cell of the front group is taken (R77, R121). -/
def advanced (k : Nat) (gs : List GroupRecord) : List GroupRecord :=
  match gs with
  | [] => []
  | g :: rest => if g.taken + 1 < g.composed then advanceGroup k g :: rest else rest

theorem composer_measured (counts : Option (Frame × Frame)) (s : State) :
    (measured counts s).composer = s.composer := by
  cases counts <;> rfl

theorem takeGroupCell_composer (k : Nat) (s : State) :
    (takeGroupCell k s).composer = { s.composer with groups := advanced k s.composer.groups } := by
  cases hgroups : s.composer.groups with
  | nil =>
    simp only [takeGroupCell, hgroups, advanced]
    rw [← hgroups]
  | cons g rest =>
    rw [takeGroupCell_eq hgroups, advanced]
    split
    · rfl
    · rw [completeGroup_eq, composer_measured]
      rfl

theorem takeCells_one {s : State} {c : Cell} {rest : List Cell} (h : s.composer.cells = c :: rest) :
    takeCells 1 s =
      let t := { s with composer := { s.composer with cells := rest } }
      if isGroupCell c then takeGroupCell (cellColumns c) t else t := by
  rw [takeCells_succ h]
  rfl

theorem taken_composer {s : State} {c : Cell} {rest : List Cell} (h : s.composer.cells = c :: rest) :
    (takeCells 1 s).composer = { s.composer with
      cells := rest
      groups := if isGroupCell c then advanced (cellColumns c) s.composer.groups
        else s.composer.groups } := by
  rw [takeCells_one h]
  dsimp only
  split
  · rw [takeGroupCell_composer]
  · rfl

theorem advanced_names (k : Nat) (gs : List GroupRecord) :
    ((advanced k gs).map (·.id)).Sublist (gs.map (·.id)) := by
  cases gs with
  | nil => exact List.Sublist.refl _
  | cons g rest =>
    rw [advanced]
    split
    · exact List.Sublist.refl _
    · exact List.sublist_cons_self _ _

theorem ComposerHolds.taken_front {c : Composer} (h : ComposerHolds c) {x : Cell} {rest : List Cell}
    (hcells : c.cells = x :: rest) (k : Nat) : ComposerHolds { c with
      cells := rest, groups := if isGroupCell x then advanced k c.groups else c.groups } := by
  have hcount := h.cells
  by_cases hx : isGroupCell x = true
  · rw [hcells, List.filter_cons_of_pos hx, List.length_cons] at hcount
    rw [if_pos hx]
    cases hgroups : c.groups with
    | nil => simp [hgroups] at hcount
    | cons g gs =>
      have hnames := advanced_names k c.groups
      rw [hgroups] at hnames
      have hlen : (advanced k (g :: gs)).length ≤ (g :: gs).length := by
        simpa using hnames.length_le
      have hg := h.taken g (by simp [hgroups])
      have hrest : ∀ q ∈ gs, q.taken < q.composed := fun q hq => h.taken q (by simp [hgroups, hq])
      rw [hgroups, List.map_cons, List.sum_cons, untaken] at hcount
      refine { h with
        taken := fun q hq => ?_
        cells := ?_
        room := hlen.trans (hgroups ▸ h.room)
        groupIds := by
          have := h.groupIds
          rw [groupNamesOf, hgroups] at this
          exact this.sublist hnames }
      · simp only [advanced] at hq
        split at hq
        · next hmore =>
          rcases List.mem_cons.mp hq with rfl | hq
          · exact hmore
          · exact hrest q hq
        · exact hrest q hq
      · simp only [advanced]
        split
        · simp only [List.map_cons, List.sum_cons, untaken, advanceGroup]
          omega
        · omega
  · rw [hcells, List.filter_cons_of_neg hx] at hcount
    rw [if_neg hx]
    exact { h with cells := hcount }

end Sys2Proof.Moves
end

section
/-! SUPPORT. Every move keeps the pipeline's order: each line as a move leaves it. -/

namespace Sys2Proof.Moves

open Sys2Proof.Machine Sys2Proof.Expect Sys2Proof.Safety Sys2Proof.ProgrammeTime
  Sys2Proof.FloorAndHandoff Sys2Proof.Effects Sys2Proof.Directives Sys2Proof.Schedules
  Sys2Proof.FrameEvents Sys2Proof.Records Sys2Proof.Corrections Sys2Proof.Emissions
  Sys2Proof.Images

/-! ### Lanes after a move -/

/-- Both lanes' stacks after a notice. -/
theorem noticed_stack (ids : List TokenId) (f : Tag → Tag) (y : Lane) (s : State) :
    (laneOf y (noticed ids f s)).stack = retagged y ids f (laneOf y s).stack := by
  cases y <;> rfl

theorem laneOf_setQueue (x y : Lane) (q : List Token) (s : State) :
    laneOf y (setQueue x q s) = if y = x then { laneOf x s with queue := q } else laneOf y s :=
  laneOf_setLane x y _ s

theorem laneOf_setStack (x y : Lane) (st : List StackEntry) (s : State) :
    laneOf y (setStack x st s) = if y = x then { laneOf x s with stack := st } else laneOf y s :=
  laneOf_setLane x y _ s

theorem entered_stack (x y : Lane) (k : Token) (rest : List Token) (s : State) :
    (laneOf y (entered x k rest s)).stack = retagged y [k.id] admitTag (laneOf y s).stack := by
  cases x <;> cases y <;> rfl

theorem discarded_stack (y : Lane) (k : Token) (rest : List Token) (s : State) :
    (laneOf y (discarded k rest s)).stack = retagged y [k.id] dropTag (laneOf y s).stack := by
  cases y <;> rfl

theorem closed_stack (y : Lane) (s : State) :
    (laneOf y (closed s)).stack =
      retagged y (s.composer.spans.map (·.id)) closeTag (laneOf y s).stack := by
  cases y <;> rfl

theorem laid_stack (y : Lane) (l : Layout) (s : State) :
    (laneOf y (laid l s)).stack =
      retagged y (s.composer.spans.map (·.id)) closeTag (laneOf y s).stack := by
  cases y <;> rfl

/-- A waiting token stays after the trim (R139). -/
def keptBehind (tail : Option Frame) (k : Token) : Bool :=
  match tail with
  | none => true
  | some tail => isAfter k.speech tail

/-- The tokens that the completion of a pass discards: the outgoing queue, and what the trim takes of
the other (R138, R139). -/
def lostTo (x : Lane) (s : State) : List Token :=
  (laneOf x s).queue ++
    (laneOf (otherLane x) s).queue.filter fun k => !keptBehind s.retiming.speechTail k

theorem passed_stack (x y : Lane) (s : State) :
    (laneOf y (passed x s)).stack =
      retagged y ((lostTo x s).map (·.id)) dropTag (laneOf y s).stack := by
  have htrim : ∀ (tail : Option Frame) (q : List Token), (q.filter fun k => match tail with
      | none => false
      | some tail => !isAfter k.speech tail) = q.filter fun k => !keptBehind tail k := fun tail q => by
    cases tail <;> rfl
  rw [lostTo, ← htrim]
  cases x <;> cases y <;> rfl

theorem passed_queue (x y : Lane) (s : State) :
    (laneOf y (passed x s)).queue =
      if y = x then [] else (laneOf y s).queue.filter (keptBehind s.retiming.speechTail) := by
  cases x <;> cases y <;> rfl

theorem flushed_stack (x y : Lane) (s : State) :
    (laneOf y (flushed x s)).stack = retagged y
      ((laneOf x s).queue.map (·.id) ++ (s.schedule.filter fun k => k.id.lane = x).map (·.id)) dropTag
      (laneOf y s).stack := by
  cases x <;> cases y <;> rfl

theorem flushed_queue (x y : Lane) (s : State) :
    (laneOf y (flushed x s)).queue = if y = x then [] else (laneOf y s).queue := by
  cases x <;> cases y <;> rfl

theorem released_stack (y : Lane) (k : Token) (rest : List Token) (s : State) :
    (laneOf y (released k rest s)).stack =
      let g := composition k s.composer.cursor s.composer.layout.width
      retagged y [k.id] (fun tag => if tag = .pending then (if g.2 = [] then .dropped else .composed)
        else tag) (if g.1 then retagged y (s.composer.spans.map (·.id)) closeTag (laneOf y s).stack
          else (laneOf y s).stack) := by
  rw [released]
  generalize composition k s.composer.cursor s.composer.layout.width = g
  obtain ⟨roll, cs⟩ := g
  cases roll <;> cases y <;> rfl

theorem clearedStack_ids (y : Lane) (s : State) (st : List StackEntry) :
    (clearedStack y s st).map (·.id) = st.map (·.id) := by
  rw [clearedStack, List.map_map]
  refine List.map_congr_left fun en _ => ?_
  simp only [Function.comp_apply]
  split <;> rfl

theorem cleared_lane {s : State} (h : (groupIdsOf s).Nodup) (y : Lane) :
    laneOf y (clearWindow s) =
      { laneOf y s with stack := clearedStack y s (laneOf y s).stack } := by
  rw [clearWindow_eq h]
  cases y <;> rfl

theorem undone_lane (sp : Span) (y : Lane) (s : State) : laneOf y (undoLast sp s) = laneOf y s := by
  unfold undoLast
  dsimp only
  split <;> cases y <;> rfl

theorem undone_schedule (sp : Span) (s : State) : (undoLast sp s).schedule = s.schedule := by
  unfold undoLast
  dsimp only
  split <;> rfl

theorem taken_queue (n : Nat) (y : Lane) (s : State) :
    (laneOf y (takeCells n s)).queue = (laneOf y s).queue := by
  rw [takeCells_eq]
  cases y <;> rfl

theorem taken_schedule (n : Nat) (s : State) : (takeCells n s).schedule = s.schedule := by
  rw [takeCells_eq]

theorem taken_stack_ids (n : Nat) (y : Lane) (s : State) :
    (laneOf y (takeCells n s)).stack.map (·.id) = (laneOf y s).stack.map (·.id) := by
  have h := congrArg Prod.snd (besidesTake_takeCells n s)
  cases y with
  | a => exact congrArg Prod.fst h
  | b => exact congrArg Prod.snd h

/-- The tokens that a shed discards: the queue's head (R34). -/
def headOf (x : Lane) (s : State) : List TokenId := ((laneOf x s).queue.take 1).map (·.id)

/-- The pipeline after a shed, however the queue stands (R34, R98). -/
theorem shedHead_eq_noticed (x : Lane) (s : State) : ∃ k : Counters, shedHead x s =
    { noticed (headOf x s) dropTag (setQueue x (laneOf x s).queue.tail s) with counters := k } := by
  unfold shedHead headOf
  split
  · next h =>
    have hsame : ∀ y st, retagged y [] dropTag st = st := fun y st => by simp [retagged]
    have hqueue : setQueue x [] s = s := by rw [setQueue, ← h, setLane_self]
    exact ⟨s.counters, by simp only [h, List.take_nil, List.map_nil, List.tail_nil, hqueue, noticed, hsame]⟩
  · next k rest h =>
    rw [h, notice_eq_noticed, tagDiscarded_eq]
    exact ⟨_, rfl⟩

theorem shed_queue (x y : Lane) (s : State) :
    (laneOf y (shedHead x s)).queue = if y = x then (laneOf x s).queue.tail else (laneOf y s).queue := by
  obtain ⟨k, h⟩ := shedHead_eq_noticed x s
  rw [h]
  cases x <;> cases y <;> rfl

theorem shed_stack (x y : Lane) (s : State) :
    (laneOf y (shedHead x s)).stack = retagged y (headOf x s) dropTag (laneOf y s).stack := by
  obtain ⟨k, h⟩ := shedHead_eq_noticed x s
  rw [h]
  cases x <;> cases y <;> rfl

theorem shed_rest (x : Lane) (s : State) : (shedHead x s).schedule = s.schedule ∧
    (shedHead x s).composer = s.composer ∧ (shedHead x s).retiming = s.retiming := by
  obtain ⟨k, h⟩ := shedHead_eq_noticed x s
  rw [h]
  cases x <;> exact ⟨rfl, rfl, rfl⟩

/-! ### Tokens that only leave -/

variable {s : State}

/-- `LineHolds.shrink` in terms of the two states, the row left as it was. -/
theorem LineHolds.leave {t : State} (h : LineHolds (lineOf s)) (hcomposer : t.composer = s.composer)
    (hqueue : ∀ x, ((laneOf x t).queue).Sublist (laneOf x s).queue)
    (hschedule : t.schedule.Sublist s.schedule)
    (hstack : ∀ x, ((laneOf x t).stack.map (·.id)).Sublist ((laneOf x s).stack.map (·.id))) :
    LineHolds (lineOf t) :=
  h.shrink (by simp only [lineOf, hcomposer]; exact h.composer)
    (fun x => by rw [lineOf_queue, lineOf_queue]; exact hqueue x) hschedule (fun x => by rw [lineOf_stack, lineOf_stack]; exact hstack x)
    (by simp only [lineOf, hcomposer, List.Subset.refl])
    (by simp only [lineOf, hcomposer, List.Subset.refl])

/-- `LineHolds.shrink` in terms of the two states, with the queues, the schedule and the entries left
as they were. -/
theorem LineHolds.recompose {t : State} (h : LineHolds (lineOf s)) (hcomposer : ComposerHolds t.composer)
    (hgroups : groupNamesOf t.composer ⊆ groupNamesOf s.composer)
    (hspans : spanNamesOf t.composer ⊆ spanNamesOf s.composer)
    (hqueue : ∀ x, (laneOf x t).queue = (laneOf x s).queue) (hschedule : t.schedule = s.schedule)
    (hstack : ∀ x, (laneOf x t).stack.map (·.id) = (laneOf x s).stack.map (·.id)) :
    LineHolds (lineOf t) :=
  h.shrink hcomposer (fun x => by rw [lineOf_queue, lineOf_queue, hqueue])
    (by simp only [lineOf, hschedule, List.Sublist.refl])
    (fun x => by rw [lineOf_stack, lineOf_stack, hstack]) hgroups hspans

theorem lineHolds_shed (h : LineHolds (lineOf s)) (x : Lane) : LineHolds (lineOf (shedHead x s)) := by
  obtain ⟨hschedule, hcomposer, -⟩ := shed_rest x s
  refine h.leave hcomposer (fun y => ?_) (by rw [hschedule])
    fun y => by rw [shed_stack, retagged_ids]
  rw [shed_queue]
  split
  · next heq => exact heq ▸ List.tail_sublist _
  · exact .refl _

theorem lineHolds_passed (h : LineHolds (lineOf s)) (x : Lane) : LineHolds (lineOf (passed x s)) := by
  have hrest : (passed x s).composer = s.composer ∧ (passed x s).schedule = s.schedule := by
    cases x <;> exact ⟨rfl, rfl⟩
  refine h.leave hrest.1 (fun y => ?_) (by rw [hrest.2]) fun y => by rw [passed_stack, retagged_ids]
  rw [passed_queue]
  split
  · exact List.nil_sublist _
  · exact List.filter_sublist

theorem lineHolds_flushed (h : LineHolds (lineOf s)) (x : Lane) : LineHolds (lineOf (flushed x s)) := by
  have hrest : (flushed x s).composer = s.composer ∧
      (flushed x s).schedule = s.schedule.filter fun k => k.id.lane ≠ x := by
    cases x <;> exact ⟨rfl, rfl⟩
  refine h.leave hrest.1 (fun y => ?_) (hrest.2 ▸ List.filter_sublist)
    fun y => by rw [flushed_stack, retagged_ids]
  rw [flushed_queue]
  split
  · exact List.nil_sublist _
  · exact .refl _

theorem lineHolds_discarded (h : LineHolds (lineOf s)) {k : Token} {rest : List Token}
    (hhead : s.schedule = k :: rest) : LineHolds (lineOf (discarded k rest s)) :=
  h.leave rfl (fun y => by rw [laneOf_discarded_queue]) (hhead ▸ List.sublist_cons_self _ _)
    fun y => by rw [discarded_stack, retagged_ids]

/-- The stacks and queues after a pop, whatever becomes of the entry's token. -/
theorem setStack_lane (x y : Lane) {en : StackEntry} {rest : List StackEntry}
    (hstack : (laneOf x s).stack = en :: rest) :
    (laneOf y (setStack x rest s)).queue = (laneOf y s).queue ∧
      ((laneOf y (setStack x rest s)).stack).Sublist (laneOf y s).stack := by
  rw [laneOf_setStack]
  split
  · next heq =>
    subst heq
    exact ⟨rfl, hstack ▸ List.sublist_cons_self _ _⟩
  · exact ⟨rfl, .refl _⟩

theorem lineHolds_forgotten (h : LineHolds (lineOf s)) {x : Lane} {en : StackEntry}
    {rest : List StackEntry} (hstack : (laneOf x s).stack = en :: rest) :
    LineHolds (lineOf (setStack x rest s)) :=
  have hrest : (setStack x rest s).composer = s.composer ∧ (setStack x rest s).schedule = s.schedule := by
    cases x <;> exact ⟨rfl, rfl⟩
  h.leave hrest.1 (fun y => by rw [(setStack_lane x y hstack).1]) (by rw [hrest.2])
    fun y => (setStack_lane x y hstack).2.map _

theorem lineHolds_recalled (h : LineHolds (lineOf s)) (x : Lane) (id : TokenId) :
    LineHolds (lineOf (setQueue x (withoutToken id (laneOf x s).queue) s)) := by
  have hrest : ∀ q, (setQueue x q s).composer = s.composer ∧ (setQueue x q s).schedule = s.schedule ∧
      ∀ y, (laneOf y (setQueue x q s)).stack = (laneOf y s).stack := fun q =>
    ⟨by cases x <;> rfl, by cases x <;> rfl, fun y => by cases x <;> cases y <;> rfl⟩
  obtain ⟨hcomposer, hschedule, hstack⟩ := hrest (withoutToken id (laneOf x s).queue)
  refine h.leave hcomposer (fun y => ?_) (by rw [hschedule]) fun y => by rw [hstack]
  rw [laneOf_setQueue]
  split
  · next heq => exact heq ▸ List.filter_sublist
  · exact .refl _

theorem lineHolds_unscheduled (h : LineHolds (lineOf s)) (id : TokenId) :
    LineHolds (lineOf { s with schedule := withoutToken id s.schedule }) :=
  h.leave rfl (fun y => by cases y <;> exact .refl _) List.filter_sublist
    fun y => by cases y <;> exact .refl _

theorem lineHolds_laid (h : LineHolds (lineOf s)) {l : Layout} (hl : layoutValid l = true) :
    LineHolds (lineOf (laid l s)) :=
  h.recompose (h.composer.laid hl) (List.Subset.refl _) (List.nil_subset _)
    (fun y => by cases y <;> rfl) rfl fun y => by rw [laid_stack, retagged_ids]

theorem lineHolds_cleared (h : LineHolds (lineOf s)) : LineHolds (lineOf (clearWindow s)) := by
  have hcomposer := congrArg State.composer (clearWindow_eq h.composer.groupIds)
  have hnone : ∀ x ∈ keptPlace (s.composer.cells.filter fun c => !isGroupCell c) ++ [.blank],
      isGroupCell x = false := by
    intro x hx
    rcases List.mem_append.mp hx with hx | hx
    · simpa using (List.mem_filter.mp (keptPlace_subset _ hx)).2
    · rw [List.mem_singleton.mp hx]
      rfl
  refine h.recompose ?_ ?_ ?_ (fun y => by rw [cleared_lane h.composer.groupIds]) ?_
    fun y => by rw [cleared_lane h.composer.groupIds, clearedStack_ids]
  · rw [hcomposer]
    exact composerHolds_of_empty h.composer.layout hnone rfl rfl rfl
  · rw [hcomposer]
    exact List.nil_subset _
  · rw [hcomposer]
    exact List.nil_subset _
  · rw [clearWindow_eq h.composer.groupIds]

theorem lineHolds_undone (h : LineHolds (lineOf s)) {left : List Span} {sp : Span}
    (hspans : s.composer.spans = left ++ [sp]) : LineHolds (lineOf (undoLast sp s)) := by
  obtain ⟨hcomposer, hgroups, hleft⟩ := h.composer.undone hspans
  refine h.recompose hcomposer (List.map_subset _ hgroups) ?_ (fun y => by rw [undone_lane])
    (undone_schedule sp s) fun y => by rw [undone_lane]
  rw [spanNamesOf, spanNamesOf, hleft, hspans]
  exact List.map_subset _ (List.subset_append_left _ _)

theorem lineHolds_taken (h : LineHolds (lineOf s)) {c : Cell} {rest : List Cell}
    (hcells : s.composer.cells = c :: rest) : LineHolds (lineOf (takeCells 1 s)) := by
  have hcomposer := taken_composer hcells
  refine h.recompose (hcomposer ▸ h.composer.taken_front hcells _) ?_ ?_ (fun y => taken_queue 1 y s)
    (taken_schedule 1 s) fun y => taken_stack_ids 1 y s
  · rw [hcomposer, groupNamesOf, groupNamesOf]
    dsimp only
    split
    · exact (advanced_names _ _).subset
    · exact List.Subset.refl _
  · rw [hcomposer]
    exact List.Subset.refl _

theorem lineHolds_restarted (h : LineHolds (lineOf s)) : LineHolds (lineOf (restart s)) :=
  h.shrink (composerHolds_of_empty h.composer.layout (by
      show ∀ x ∈ [] ++ placePair s.composer.layout, isGroupCell x = false
      simp [placePair, isGroupCell]) rfl rfl rfl)
    (fun x => by cases x <;> exact List.nil_sublist _) (List.nil_sublist _)
    (fun x => by cases x <;> exact List.nil_sublist _) (List.nil_subset _) (List.nil_subset _)

end Sys2Proof.Moves
end

section
/-! SUPPORT. Every move keeps the pipeline's order, continued: tokens that arrive somewhere. Every step
keeps the pipeline in order, settled. -/

namespace Sys2Proof.Moves

open Sys2Proof.Machine Sys2Proof.Expect Sys2Proof.Safety Sys2Proof.ProgrammeTime
  Sys2Proof.FloorAndHandoff Sys2Proof.Effects Sys2Proof.Directives Sys2Proof.Schedules
  Sys2Proof.FrameEvents Sys2Proof.Records Sys2Proof.Corrections Sys2Proof.Emissions
  Sys2Proof.Images

variable {s : State}

/-! ### A new token -/

theorem LineHolds.queue_state (h : LineHolds (lineOf s)) (x : Lane) :
    (laneOf x s).queue.length ≤ 48 ∧ (∀ k ∈ (laneOf x s).queue, textHolds k = true ∧ k.id.lane = x) ∧
      ((laneOf x s).queue.map (·.id)).Nodup ∧ ∀ k ∈ (laneOf x s).queue,
        k.id ∉ s.schedule.map (·.id) ∧ k.id ∉ groupNamesOf s.composer ∧ k.id ∉ spanNamesOf s.composer := by
  rw [← lineOf_queue]
  exact ⟨h.queueRoom x, h.queueText x, h.queueIds x, h.queueFresh x⟩

theorem LineHolds.stack_state (h : LineHolds (lineOf s)) (x : Lane) :
    (laneOf x s).stack.length ≤ 8 ∧ ((laneOf x s).stack.map (·.id)).Nodup ∧
      ∀ en ∈ (laneOf x s).stack, en.id.lane = x := by
  rw [← lineOf_stack]
  exact ⟨h.stackRoom x, h.stackIds x, h.stackLane x⟩

theorem length_le_sum_columns {sps : List Span} (h : ∀ sp ∈ sps, 1 ≤ sp.columns) :
    sps.length ≤ (sps.map (·.columns)).sum := by
  induction sps with
  | nil => exact le_refl _
  | cons sp rest ih =>
    have hsp := h sp (by simp)
    have := ih fun q hq => h q (by simp [hq])
    simp only [List.length_cons, List.map_cons, List.sum_cons]
    omega

/-- The width of a window is 16 to 40 (R73). -/
theorem ComposerHolds.layout_range {c : Composer} (h : ComposerHolds c) :
    16 ≤ c.layout.width ∧ c.layout.width ≤ 40 := by
  have hlayout := (layoutValid_eq c.layout.base c.layout.depth c.layout.left c.layout.width).symm.trans
    h.layout
  rw [validLayout, decide_eq_true_eq] at hlayout
  obtain ⟨-, -, -, -, -, hlow, hhigh, -⟩ := hlayout
  exact ⟨hlow, hhigh⟩

/-- A row of legal width holds at most 40 spans. -/
theorem ComposerHolds.spans_le {c : Composer} (h : ComposerHolds c) : c.spans.length ≤ 40 := by
  have hlen := length_le_sum_columns h.columns
  have hcursor := h.cursor
  have hwidth := h.width
  have hlayout := h.layout_range
  omega

/-- The identity of a new token is borne by no other and named by no record, span or entry (R30). -/
theorem not_held_serialFor (h : LineHolds (lineOf s)) (x : Lane) : ¬ held x s (serialFor x s) := by
  have hqueue := (h.queue_state x).1
  have hstack := (h.stack_state x).1
  have hschedule : s.schedule.length ≤ 96 := h.scheduleRoom
  have hgroups : s.composer.groups.length ≤ 64 := h.composer.room
  have hspans : s.composer.spans.length ≤ 40 := h.composer.spans_le
  exact (serialsAreFree s x (by omega)).1

theorem laneOf_queued (k : Token) (y : Lane) (s : State) :
    (laneOf y (queued k s)).queue =
        (if y = k.id.lane then (laneOf y s).queue ++ [k] else (laneOf y s).queue) ∧
      (laneOf y (queued k s)).stack =
        if y = k.id.lane then pushed k (laneOf y s).stack else (laneOf y s).stack := by
  rw [queued, laneOf_setLane]
  split
  · next heq =>
    subst heq
    exact ⟨rfl, rfl⟩
  · cases y <;> exact ⟨rfl, rfl⟩

theorem queued_rest (k : Token) (s : State) :
    (queued k s).schedule = s.schedule ∧ (queued k s).composer = s.composer ∧
      (queued k s).retiming = s.retiming := by
  unfold queued
  cases k.id.lane <;> exact ⟨rfl, rfl, rfl⟩

/-- The identities that a stack names after a push. -/
theorem pushed_ids_sublist (k : Token) (st : List StackEntry) :
    ((pushed k st).map (·.id)).Sublist (k.id :: st.map (·.id)) := by
  unfold pushed
  split
  · exact List.sublist_cons_self _ _
  · exact (List.take_sublist _ _).map _

theorem pushed_length_le (k : Token) {st : List StackEntry} (h : st.length ≤ 8) :
    (pushed k st).length ≤ 8 := by
  unfold pushed
  split
  · exact h
  · exact List.length_take_le _ _

theorem lineHolds_queued (h : LineHolds (lineOf s)) {k : Token} {x : Lane} (hlane : k.id.lane = x)
    (hroom : (laneOf x s).queue.length < 48) (htext : textHolds k = true)
    (hfresh : ¬ held x s k.id.serial) : LineHolds (lineOf (queued k s)) := by
  have hid : ∀ {i : TokenId}, i = k.id → i = { lane := x, serial := k.id.serial } := fun heq => by
    rw [heq, ← hlane]
  have hqueue : ∀ i ∈ (laneOf x s).queue.map (·.id), i ≠ k.id := fun i hi heq => by
    obtain ⟨q, hq, rfl⟩ := List.mem_map.mp hi
    exact hfresh (.inl ⟨q, hq, hid heq⟩)
  have hschedule : k.id ∉ s.schedule.map (·.id) := fun hi => by
    obtain ⟨q, hq, heq⟩ := List.mem_map.mp hi
    exact hfresh (.inr (.inl ⟨q, hq, hid heq⟩))
  have hgroup : k.id ∉ groupNamesOf s.composer := fun hi => by
    obtain ⟨q, hq, heq⟩ := List.mem_map.mp hi
    exact hfresh (.inr (.inr (.inl ⟨q, hq, hid heq⟩)))
  have hspan : k.id ∉ spanNamesOf s.composer := fun hi => by
    obtain ⟨q, hq, heq⟩ := List.mem_map.mp hi
    exact hfresh (.inr (.inr (.inr (.inl ⟨q, hq, hid heq⟩))))
  have hstack : k.id ∉ (laneOf x s).stack.map (·.id) := fun hi => by
    obtain ⟨q, hq, heq⟩ := List.mem_map.mp hi
    exact hfresh (.inr (.inr (.inr (.inr ⟨q, hq, hid heq⟩))))
  obtain ⟨hsched', hcomposer', -⟩ := queued_rest k s
  subst hlane
  have hq : ∀ y, (lineOf (queued k s)).queue y =
      if y = k.id.lane then (laneOf y s).queue ++ [k] else (laneOf y s).queue := fun y => by
    rw [lineOf_queue, (laneOf_queued k y s).1]
  have hst : ∀ y, (lineOf (queued k s)).stack y =
      if y = k.id.lane then pushed k (laneOf y s).stack else (laneOf y s).stack := fun y => by
    rw [lineOf_stack, (laneOf_queued k y s).2]
  have hschedEq : (lineOf (queued k s)).schedule = s.schedule := hsched'
  have hcompEq : (lineOf (queued k s)).composer = s.composer := hcomposer'
  have hmem : ∀ y, ∀ q ∈ (lineOf (queued k s)).queue y,
      q ∈ (laneOf y s).queue ∨ (y = k.id.lane ∧ q = k) := by
    intro y q hmem
    rw [hq] at hmem
    split at hmem
    · next heq => exact (List.mem_append.mp hmem).imp_right fun hk => ⟨heq, List.mem_singleton.mp hk⟩
    · exact .inl hmem
  refine ⟨hcompEq ▸ h.composer, fun y => ?_, hschedEq ▸ h.scheduleRoom, fun y => ?_, fun y q hmq => ?_,
    hschedEq ▸ h.scheduleText, fun y => ?_, hschedEq ▸ h.scheduleIds, fun y q hmq => ?_, ?_, fun y => ?_,
    fun y en hen => ?_⟩
  · rw [hq]
    split
    · next heq => simpa [heq] using hroom
    · exact (h.queue_state y).1
  · rw [hst]
    split
    · exact pushed_length_le k (h.stack_state y).1
    · exact (h.stack_state y).1
  · rcases hmem y q hmq with hold | ⟨rfl, rfl⟩
    · exact (h.queue_state y).2.1 q hold
    · exact ⟨htext, rfl⟩
  · rw [hq]
    split
    · next heq =>
      subst heq
      rw [List.map_append, List.map_cons, List.map_nil]
      exact List.nodup_append.mpr ⟨(h.queue_state _).2.2.1, List.nodup_singleton _,
        fun i hi j hj => List.mem_singleton.mp hj ▸ hqueue i hi⟩
    · exact (h.queue_state y).2.2.1
  · rw [hschedEq, hcompEq]
    rcases hmem y q hmq with hold | ⟨rfl, rfl⟩
    · exact (h.queue_state y).2.2.2 q hold
    · exact ⟨hschedule, hgroup, hspan⟩
  · rw [hschedEq, hcompEq]
    exact h.scheduleFresh
  · rw [hst]
    split
    · next heq =>
      subst heq
      exact (List.nodup_cons.mpr ⟨hstack, (h.stack_state _).2.1⟩).sublist (pushed_ids_sublist k _)
    · exact (h.stack_state y).2.1
  · rw [hst] at hen
    split at hen
    · next heq =>
      subst heq
      have hid := (pushed_ids_sublist k _).subset (List.mem_map_of_mem hen)
      rcases List.mem_cons.mp hid with heq | hold
      · rw [heq]
      · obtain ⟨en', hen', heq⟩ := List.mem_map.mp hold
        exact heq ▸ (h.stack_state _).2.2 en' hen'
    · exact (h.stack_state y).2.2 en hen

/-! ### An admission -/

theorem entered_rest (x : Lane) (k : Token) (rest : List Token) (s : State) :
    (entered x k rest s).schedule =
        s.schedule ++ [{ k with speech := raised s.retiming.speechTail k.speech }] ∧
      (entered x k rest s).composer = s.composer ∧
      (entered x k rest s).retiming.speechTail = some (raised s.retiming.speechTail k.speech) := by
  cases x <;> exact ⟨rfl, rfl, rfl⟩

theorem lineHolds_entered (h : LineHolds (lineOf s)) {x : Lane} {k : Token} {rest : List Token}
    (hqueue : (laneOf x s).queue = k :: rest) (hroom : s.schedule.length < 96) :
    LineHolds (lineOf (entered x k rest s)) := by
  obtain ⟨hsched, hcomposer, -⟩ := entered_rest x k rest s
  obtain ⟨-, hown, hids, hfresh⟩ := h.queue_state x
  rw [hqueue] at hown hids hfresh
  obtain ⟨htext, hlane⟩ := hown k (by simp)
  obtain ⟨hkSched, hkGroup, hkSpan⟩ := hfresh k (by simp)
  have hschedIds : (entered x k rest s).schedule.map (·.id) = s.schedule.map (·.id) ++ [k.id] := by
    rw [hsched, List.map_append, List.map_cons, List.map_nil]
  have hq : ∀ y, ((laneOf y (entered x k rest s)).queue).Sublist (laneOf y s).queue := fun y => by
    rw [laneOf_entered_queue]
    split
    · next heq =>
      subst heq
      exact hqueue ▸ List.sublist_cons_self _ _
    · exact .refl _
  have hk : ∀ y, ∀ q ∈ (laneOf y (entered x k rest s)).queue, q.id ≠ k.id := by
    intro y q hmq heq
    have hy : y = x := by
      rw [← ((h.queue_state y).2.1 q ((hq y).subset hmq)).2, heq, hlane]
    subst hy
    rw [laneOf_entered_queue, if_pos rfl] at hmq
    exact (List.nodup_cons.mp hids).1 (List.mem_map.mpr ⟨q, hmq, heq⟩)
  have hschedEq : (lineOf (entered x k rest s)).schedule = (entered x k rest s).schedule := rfl
  have hcompEq : (lineOf (entered x k rest s)).composer = s.composer := hcomposer
  refine ⟨hcompEq ▸ h.composer, fun y => ?_, ?_, fun y => ?_, fun y q hmq => ?_, ?_, fun y => ?_, ?_,
    fun y q hmq => ?_, ?_, fun y => ?_, fun y en hen => ?_⟩
  · rw [lineOf_queue]
    exact (hq y).length_le.trans (h.queue_state y).1
  · rw [hschedEq, hsched]
    simpa using hroom
  · rw [lineOf_stack, entered_stack, retagged, List.length_map]
    exact (h.stack_state y).1
  · rw [lineOf_queue] at hmq
    exact (h.queue_state y).2.1 q ((hq y).subset hmq)
  · rw [hschedEq, hsched]
    intro q hmq
    rcases List.mem_append.mp hmq with hold | hnew
    · exact h.scheduleText q hold
    · rw [List.mem_singleton.mp hnew]
      exact htext
  · rw [lineOf_queue]
    exact (h.queue_state y).2.2.1.sublist ((hq y).map _)
  · rw [hschedEq, hschedIds]
    exact List.nodup_append.mpr ⟨h.scheduleIds, List.nodup_singleton _, fun i hi j hj heq =>
      hkSched (by rwa [← List.mem_singleton.mp hj, ← heq])⟩
  · rw [lineOf_queue] at hmq
    obtain ⟨h1, h2, h3⟩ := (h.queue_state y).2.2.2 q ((hq y).subset hmq)
    rw [hschedEq, hcompEq, hschedIds]
    exact ⟨by simpa using ⟨by simpa using h1, hk y q hmq⟩, h2, h3⟩
  · rw [hcompEq, hschedEq, hsched]
    intro q hmq
    rcases List.mem_append.mp hmq with hold | hnew
    · exact h.scheduleFresh q hold
    · rw [List.mem_singleton.mp hnew]
      exact ⟨hkGroup, hkSpan⟩
  · rw [lineOf_stack, entered_stack, retagged_ids]
    exact (h.stack_state y).2.1
  · rw [lineOf_stack, entered_stack] at hen
    have hid := List.mem_map_of_mem (f := StackEntry.id) hen
    rw [retagged_ids] at hid
    obtain ⟨en', hen', heq⟩ := List.mem_map.mp hid
    exact heq ▸ (h.stack_state y).2.2 en' hen'

end Sys2Proof.Moves
end

section
/-! SUPPORT. Every move keeps the pipeline's order, concluded: a release, the pin and a load; and every
step keeps it, settled. -/

namespace Sys2Proof.Moves

open Sys2Proof.Machine Sys2Proof.Expect Sys2Proof.Safety Sys2Proof.ProgrammeTime
  Sys2Proof.FloorAndHandoff Sys2Proof.Effects Sys2Proof.Directives Sys2Proof.Schedules
  Sys2Proof.FrameEvents Sys2Proof.Records Sys2Proof.Corrections Sys2Proof.Emissions
  Sys2Proof.Images

variable {s : State}

/-! ### A release -/

theorem released_schedule (k : Token) (rest : List Token) (s : State) :
    (released k rest s).schedule = rest := by
  rw [released]
  generalize composition k s.composer.cursor s.composer.layout.width = g
  obtain ⟨roll, cs⟩ := g
  cases roll <;> rfl

theorem joined_names (k : Token) (cs : List Cell) (c : Composer) :
    groupNamesOf (joined k cs c) ⊆ groupNamesOf c ++ [k.id] ∧
      spanNamesOf (joined k cs c) ⊆ spanNamesOf c ++ [k.id] := by
  simp only [groupNamesOf, spanNamesOf, joined, List.map_append]
  by_cases hnil : cs = [] <;> simp [hnil]

theorem composerHolds_released (h : ComposerHolds s.composer) {k : Token}
    (hfits : groupFits k s = true) (hgroup : k.id ∉ groupNamesOf s.composer)
    (hspan : k.id ∉ spanNamesOf s.composer) (rest : List Token) :
    ComposerHolds (released k rest s).composer := by
  have hlayout := h.layout_range
  have hwithin := composition_within (k := k) (cursor := s.composer.cursor)
    (width := s.composer.layout.width) (le_trans (by decide) hlayout.1) h.width
  have hcells : ∀ x ∈ (composition k s.composer.cursor s.composer.layout.width).2,
      isGroupCell x = true := fun x hx => isGroupCell_of_mem_composition hx
  rw [groupFits_iff] at hfits
  rw [released_composer]
  generalize composition k s.composer.cursor s.composer.layout.width = g at *
  obtain ⟨roll, cs⟩ := g
  dsimp only at *
  cases roll with
  | true =>
    rw [Bool.toNat_true] at hfits
    exact h.rolled.joined hcells (by simpa [rolled, emptied] using hwithin)
      (by simp only [rolled, List.length_append, List.length_singleton]; omega) hgroup nofun
  | false =>
    rw [Bool.toNat_false] at hfits
    exact h.joined hcells (by simpa using hwithin) (by omega) hgroup hspan

theorem lineHolds_released (h : LineHolds (lineOf s)) {k : Token} {rest : List Token}
    (hhead : s.schedule = k :: rest) (hfits : groupFits k s = true) :
    LineHolds (lineOf (released k rest s)) := by
  have hk : k ∈ s.schedule := hhead ▸ List.mem_cons_self
  obtain ⟨hgroup, hspan⟩ := h.scheduleFresh k hk
  have hnames : groupNamesOf (released k rest s).composer ⊆ groupNamesOf s.composer ++ [k.id] ∧
      spanNamesOf (released k rest s).composer ⊆ spanNamesOf s.composer ++ [k.id] := by
    rw [released_composer]
    dsimp only
    have hjoined := joined_names k (composition k s.composer.cursor s.composer.layout.width).2
    split
    · exact ⟨(hjoined _).1, fun i hi => by
        have hi := (hjoined _).2 hi
        rw [show spanNamesOf (rolled s.composer) = [] from rfl, List.nil_append] at hi
        exact List.mem_append_right _ hi⟩
    · exact hjoined _
  have hfresh : ∀ i, i ∉ groupNamesOf s.composer ∧ i ∉ spanNamesOf s.composer → i ≠ k.id →
      i ∉ groupNamesOf (released k rest s).composer ∧
        i ∉ spanNamesOf (released k rest s).composer := by
    rintro i ⟨hg, hsp⟩ hne
    exact ⟨fun hi => by simpa [hg, hne] using hnames.1 hi, fun hi => by simpa [hsp, hne] using hnames.2 hi⟩
  have hids : (k.id :: rest.map (·.id)).Nodup := by
    have := h.scheduleIds
    rwa [show (lineOf s).schedule = k :: rest from hhead, List.map_cons] at this
  have hrest : rest ⊆ s.schedule := hhead ▸ List.subset_cons_self _ _
  have hschedEq : (lineOf (released k rest s)).schedule = rest := released_schedule k rest s
  have hcompEq : (lineOf (released k rest s)).composer = (released k rest s).composer := rfl
  have hq : ∀ y, (lineOf (released k rest s)).queue y = (lineOf s).queue y := fun y => by
    rw [lineOf_queue, lineOf_queue, laneOf_released_queue]
  have hst : ∀ y, ((lineOf (released k rest s)).stack y).map (·.id) =
      ((lineOf s).stack y).map (·.id) := fun y => by
    rw [lineOf_stack, lineOf_stack, released_stack]
    dsimp only
    rw [retagged_ids]
    split
    · rw [retagged_ids]
    · rfl
  refine ⟨composerHolds_released h.composer hfits hgroup hspan rest, fun y => hq y ▸ h.queueRoom y, ?_,
    fun y => ?_, fun y => hq y ▸ h.queueText y, ?_, fun y => hq y ▸ h.queueIds y, ?_, fun y q hmq => ?_,
    ?_, fun y => hst y ▸ h.stackIds y, fun y en hen => ?_⟩
  · rw [hschedEq]
    have := h.scheduleRoom
    rw [show (lineOf s).schedule = k :: rest from hhead, List.length_cons] at this
    omega
  · have := congrArg List.length (hst y)
    rw [List.length_map, List.length_map] at this
    exact this ▸ h.stackRoom y
  · rw [hschedEq]
    exact fun q hmq => h.scheduleText q (hrest hmq)
  · rw [hschedEq]
    exact (List.nodup_cons.mp hids).2
  · rw [hq] at hmq
    obtain ⟨hs, hgs⟩ := h.queueFresh y q hmq
    rw [hschedEq, hcompEq]
    refine ⟨fun hi => hs (List.map_subset _ hrest hi), hfresh q.id hgs fun heq => hs ?_⟩
    exact heq ▸ List.mem_map_of_mem hk
  · rw [hschedEq, hcompEq]
    exact fun q hmq => hfresh q.id (h.scheduleFresh q (hrest hmq)) fun heq =>
      (List.nodup_cons.mp hids).1 (heq ▸ List.mem_map_of_mem hmq)
  · have hid := List.mem_map_of_mem (f := StackEntry.id) hen
    rw [hst] at hid
    obtain ⟨en', hen', heq⟩ := List.mem_map.mp hid
    exact heq ▸ h.stackLane y en' hen'

/-! ### A load (R173, R174) -/

theorem runsStand_count {gs : List GroupRecord} {cs : List Cell} (h : runsStand gs cs) :
    (gs.map untaken).sum = (cs.filter isGroupCell).length := by
  induction gs generalizing cs with
  | nil => rw [filter_isGroupCell_of_none h]; rfl
  | cons g rest ih =>
    obtain ⟨front, own, back, rfl, hfront, hlen, hown, -, hback⟩ := h
    rw [List.filter_append, List.filter_append, filter_isGroupCell_of_none hfront,
      List.filter_eq_self.mpr hown, List.map_cons, List.sum_cons, ih hback, untaken, ← hlen]
    simp

theorem textHolds_tokenNamed {r : List Word} (h : recordNames r) : textHolds (tokenNamed r) = true := by
  have hlen : ∀ n, n ≤ 32 → (Expect.text (BitVec.ofNat 6 n) (r.drop 6)).length = n := fun n hn => by
    rw [text_of_le hn, List.length_map, charsOf, List.length_map, List.length_range]
  have hshown : (Expect.text (BitVec.ofNat 6 (numberAt r 0 % 64)) (r.drop 6)).all
      (fun c => accepted c || c == blot) = true := by
    rw [List.all_eq_true]
    intro c hc
    obtain ⟨d, -, rfl⟩ := List.mem_map.mp hc
    rw [← substitute_eq_shown, substitute]
    split <;> simp_all
  obtain ⟨kind, hkind, hok⟩ := (kindOfCode_names (r.getD 0 0) (numberAt r 0 % 64)).mpr h
  have hname : (tokenNamed r).kind = kind := by rw [tokenNamed, hkind]; rfl
  rw [textHolds, hname]
  cases kind with
  | word =>
    simp only [tokenLengthOk, Bool.and_eq_true, decide_eq_true_eq] at hok
    simp only [tokenNamed, hlen _ hok.2, hshown, Bool.and_eq_true, decide_eq_true_eq, and_true]
    exact hok
  | speaker | paragraph =>
    have hzero : numberAt r 0 % 64 = 0 := by simpa [tokenLengthOk] using hok
    simp only [tokenNamed, hzero, List.isEmpty_iff, ← List.length_eq_zero_iff]
    exact hlen 0 (by decide)

theorem layoutSpans_same (start : Nat) (sps : List Span) :
    (layoutSpans start sps).map (·.id) = sps.map (·.id) ∧
      (layoutSpans start sps).map (·.columns) = sps.map (·.columns) := by
  induction sps generalizing start with
  | nil => exact ⟨rfl, rfl⟩
  | cons sp rest ih =>
    obtain ⟨hids, hcols⟩ := ih (start + sp.columns)
    simp only [layoutSpans, List.map_cons, hids, hcols, and_self]

theorem orderSchedule_ids (before : Option Frame) (ts : List Token) :
    (orderSchedule before ts).map (·.id) = ts.map (·.id) := by
  induction ts generalizing before with
  | nil => rfl
  | cons k rest ih => simp only [orderSchedule, List.map_cons, ih]

theorem mem_orderSchedule {before : Option Frame} {ts : List Token} {k : Token}
    (h : k ∈ orderSchedule before ts) : ∃ t ∈ ts, textHolds k = textHolds t := by
  induction ts generalizing before with
  | nil => cases h
  | cons t rest ih =>
    rcases List.mem_cons.mp h with rfl | h
    · exact ⟨t, by simp, rfl⟩
    · obtain ⟨t', ht', heq⟩ := ih h
      exact ⟨t', by simp [ht'], heq⟩

theorem placesMarked_le (mask : Nat) : placesMarked mask ≤ 8 :=
  (List.length_filter_le _ _).trans_eq List.length_range

theorem loadStack_ids (queue schedule : List Token) (S : ImageSections) (st : List ImageEntry) :
    (loadStack queue schedule S st).map (·.id) = (st.map (·.id)).reverse := by
  simp only [loadStack, List.map_reverse, List.map_map]
  rfl

/-- An image that passes every check loads a pipeline in order. -/
theorem pipelineHolds_loaded {S : ImageSections}
    (hvalid : validImage s.timebase.epoch s.image = some S) :
    PipelineHolds (loadSections s.image.words S s) := by
  obtain ⟨-, g, hdivides, hcounts, hparts, rfl⟩ := (validImage_eq_some_iff _ _ _).mp hvalid
  have hreadable : readable g := by
    obtain ⟨⟨hnames, -⟩, -, -, ⟨hnamed, -⟩, -, -, -, hcues⟩ := hparts
    exact ⟨hnames, hnamed, hcues⟩
  obtain ⟨⟨hlaneQA, hlaneQB⟩, ⟨hgroupIds, hspanIds, hentryIds⟩, hlayout, hgs, hruns,
    ⟨hwidth, hcursor, hcols⟩, -, hlaneA, hlaneB, -⟩ :=
    (sectionsPass_iff (epoch := s.timebase.epoch) hreadable).mpr hparts
  obtain ⟨hqa, hqb, hsched, -, hgroups, -, hcues⟩ := hcounts
  obtain ⟨-, -, -, hstackA, hstackB, -⟩ := hdivides
  have htexts : ∀ t ∈ (g.queueA ++ g.queueB ++ g.schedule).map tokenNamed, textHolds t = true :=
    List.forall_mem_map.mpr fun r hr => textHolds_tokenNamed (hreadable.1 r hr)
  generalize hS : sectionsNamed s.timebase.epoch g = S at *
  have hqueueA : S.queueA = g.queueA.map tokenNamed := hS ▸ rfl
  have hqueueB : S.queueB = g.queueB.map tokenNamed := hS ▸ rfl
  have hschedule : S.schedule = g.schedule.map tokenNamed := hS ▸ rfl
  have hlenA : S.stackA.length ≤ 8 := by
    rw [← hS, sectionsNamed, List.length_map, hstackA]
    exact placesMarked_le _
  have hlenB : S.stackB.length ≤ 8 := by
    rw [← hS, sectionsNamed, List.length_map, hstackB]
    exact placesMarked_le _
  have hcueLen : S.cues.length ≤ 8 := by
    rw [← hS, sectionsNamed, List.length_map]
    exact hcues
  have hgroupLen : S.groups.length ≤ 64 := by
    rw [← hS, sectionsNamed, List.length_map]
    exact hgroups
  rw [List.map_append, List.map_append, ← hqueueA, ← hqueueB, ← hschedule] at htexts
  simp only [List.forall_mem_append] at htexts
  obtain ⟨⟨htextA, htextB⟩, htextS⟩ := htexts
  obtain ⟨hsameIds, hsameCols⟩ := layoutSpans_same 0 S.spans
  generalize hshift : s.timebase.e - frameOfWords (s.image.words.getD 2 0) (s.image.words.getD 3 0) = shift
  have hmoved : ∀ ts : List Token, (ts.map (rebaseToken shift)).map (·.id) = ts.map (·.id) := fun ts => by
    rw [List.map_map]
    rfl
  have htokenIds : tokenIdsOf (loadSections s.image.words S s) = tokenIds S := by
    simp only [tokenIdsOf, tokenIds, loadSections, loadLane, hshift, List.map_append, hmoved,
      orderSchedule_ids]
  have hentries : entryIdsOf (loadSections s.image.words S s) =
      (S.stackA.map (·.id)).reverse ++ (S.stackB.map (·.id)).reverse := by
    simp only [entryIdsOf, loadSections, loadLane, List.map_append, loadStack_ids]
  have hstack : ∀ {x q sch} {st : List ImageEntry}, (∀ en ∈ st, en.id.lane = x) →
      ∀ en ∈ loadStack q sch S st, en.id.lane = x := by
    intro x q sch st h en hen
    have hid := List.mem_map_of_mem (f := StackEntry.id) hen
    rw [loadStack_ids, List.mem_reverse] at hid
    obtain ⟨en', hen', heq⟩ := List.mem_map.mp hid
    exact heq ▸ h en' hen'
  refine ⟨hlayout, ⟨?_, ?_, ?_, ?_, ?_, hcueLen⟩, ⟨?_, hwidth, ?_⟩, ⟨?_, ?_, ?_⟩,
    ⟨fun k hk => (hgs k hk).1, runsStand_count hruns, hgroupLen⟩, ?_, ?_, ?_, hstack hlaneA,
    hstack hlaneB⟩
  · show (S.queueA.map _).length ≤ 48
    simpa [hqueueA] using hqa
  · show (S.queueB.map _).length ≤ 48
    simpa [hqueueB] using hqb
  · show (orderSchedule none (S.schedule.map _)).length ≤ 96
    rw [← List.length_map (f := Token.id), orderSchedule_ids]
    simpa [hschedule] using hsched
  · show (loadStack _ _ S S.stackA).length ≤ 8
    simpa [loadStack] using hlenA
  · show (loadStack _ _ S S.stackB).length ≤ 8
    simpa [loadStack] using hlenB
  · show S.cursor = ((layoutSpans 0 S.spans).map (·.columns)).sum
    rw [hsameCols, hcursor]
  · intro sp hsp
    have hcol := List.mem_map_of_mem (f := Span.columns) hsp
    rw [show (loadSections s.image.words S s).composer.spans = layoutSpans 0 S.spans from rfl,
      hsameCols] at hcol
    obtain ⟨sp', hsp', heq⟩ := List.mem_map.mp hcol
    exact heq ▸ hcols sp' hsp'
  · intro t ht
    obtain ⟨t', ht', rfl⟩ := List.mem_map.mp (show t ∈ S.queueA.map _ from ht)
    exact ⟨htextA t' ht', hlaneQA t' ht'⟩
  · intro t ht
    obtain ⟨t', ht', rfl⟩ := List.mem_map.mp (show t ∈ S.queueB.map _ from ht)
    exact ⟨htextB t' ht', hlaneQB t' ht'⟩
  · intro t ht
    obtain ⟨t', ht', heq⟩ := mem_orderSchedule (show t ∈ orderSchedule none (S.schedule.map _) from ht)
    obtain ⟨t'', ht'', rfl⟩ := List.mem_map.mp ht'
    exact heq.trans (htextS t'' ht'')
  · rw [htokenIds]
    exact hgroupIds
  · rw [htokenIds, spanIdsOf, show (loadSections s.image.words S s).composer.spans =
      layoutSpans 0 S.spans from rfl, hsameIds]
    exact hspanIds
  · rw [hentries, ((List.reverse_perm _).append (List.reverse_perm _)).nodup_iff, ← List.map_append]
    exact hentryIds

/-! ### Every move -/

theorem pipelineHolds_atRelease (span : BitVec 5) (rate : BitVec 2) :
    PipelineHolds (State.atRelease span rate) := by
  have h : PipelineHolds (State.atRelease 0 0) := by decide
  exact h

/-- Every move keeps the pipeline in order; a move of a command that finds it so. -/
theorem Move.line {s₀ t : State} (h : Move s₀ s t) (hstart : LineHolds (lineOf s₀))
    (hs : LineHolds (lineOf s)) : LineHolds (lineOf t) := by
  cases h with
  | aside h => exact h.line ▸ hs
  | queued x kind sentEnd attach text hroom htext =>
    exact lineHolds_queued hs rfl (hroom (hstart.queue_state x).1) htext (not_held_serialFor hs x)
  | shed x => exact lineHolds_shed hs x
  | entered x k rest hqueue hroom => exact lineHolds_entered hs hqueue hroom
  | passed x => exact lineHolds_passed hs x
  | discarded k rest hhead => exact lineHolds_discarded hs hhead
  | released k rest hhead hfits => exact lineHolds_released hs hhead hfits
  | flushed x => exact lineHolds_flushed hs x
  | laid l hvalid => exact lineHolds_laid hs hvalid
  | cleared => exact lineHolds_cleared hs
  | forgotten x en rest hstack => exact lineHolds_forgotten hs hstack
  | recalled x en rest hstack =>
    have hqueue := (setStack_lane x x hstack).1
    rw [← hqueue]
    exact lineHolds_recalled (lineHolds_forgotten hs hstack) x en.id
  | unscheduled x en rest hstack =>
    have hschedule : (setStack x rest s).schedule = s.schedule := by cases x <;> rfl
    rw [← hschedule]
    exact lineHolds_unscheduled (lineHolds_forgotten hs hstack) en.id
  | undone x en rest left sp hstack _ hspans =>
    have hcomposer : (setStack x rest s).composer = s.composer := by cases x <;> rfl
    exact lineHolds_undone (lineHolds_forgotten hs hstack) (hcomposer ▸ hspans)
  | taken c rest hcells => exact lineHolds_taken hs hcells
  | restarted => exact lineHolds_restarted hs
  | reset span rate => exact ((pipelineHolds_iff _).mp (pipelineHolds_atRelease span rate)).1
  | loaded S _ _ _ _ hvalid => exact ((pipelineHolds_iff _).mp (pipelineHolds_loaded hvalid)).1

theorem Move.pipeline {s₀ t : State} (h : Move s₀ s t) (hstart : PipelineHolds s₀)
    (hs : PipelineHolds s) : PipelineHolds t := by
  obtain ⟨hline, hcues⟩ := (pipelineHolds_iff s).mp hs
  exact (pipelineHolds_iff t).mpr ⟨h.line ((pipelineHolds_iff _).mp hstart).1 hline,
    h.ranges.cueCount hcues⟩

/-- Settles O59: the pipeline's order move by move. -/
theorem everyStepKeepsThePipeline : Obligations.EveryStepKeepsThePipeline := by
  intro s t hs h
  exact step_keeps h hs (fun _ _ hu => hu) fun _ _ _ hstart _ hu huv => huv.pipeline hstart hu

end Sys2Proof.Moves
end

section
/-! SUPPORT. The image that a SNAPSHOT writes (10_hold_snapshot_and_restore.md, 10.3), settled: each
section of the model's image as its table gives it. -/

namespace Sys2Proof.Images

open Sys2Proof.Machine Sys2Proof.Expect Sys2Proof.Safety Sys2Proof.Effects Sys2Proof.Directives
  Sys2Proof.Accesses Sys2Proof.Words Sys2Proof.FloorAndHandoff

/-! ### Fields and records as words -/

/-- Numbers as words. -/
abbrev asWords (ns : List Nat) : List Word := ns.map (BitVec.ofNat 16)

theorem identityWord_eq (top : BitVec 3) (id : TokenId) :
    identityWord top id = BitVec.ofNat 16 (8192 * top.toNat + identityNumber id) := by
  apply BitVec.eq_of_toNat_eq
  obtain ⟨x, n⟩ := id
  have hn := n.isLt
  have htop := top.isLt
  cases x with
  | a =>
    have hbit : (laneBit .a).toNat = 0 := rfl
    simp only [identityWord, toNat_append, BitVec.toNat_ofNat, identityNumber, hbit]
    omega
  | b =>
    have hbit : (laneBit .b).toNat = 1 := rfl
    simp only [identityWord, toNat_append, BitVec.toNat_ofNat, identityNumber, hbit]
    omega

theorem identityWord_zero (id : TokenId) : identityWord 0 id = BitVec.ofNat 16 (identityNumber id) := by
  rw [identityWord_eq]
  congr 1
  exact Nat.zero_add _

theorem frameWords_eq (f : Frame) : frameWords f = asWords (frameNumbers f) := by
  rw [frameWords, lowWord_eq, highWord_eq]
  rfl

theorem optionalFrameWords_eq (f : Option Frame) :
    optionalFrameWords f = asWords (optionNumbers f) := by
  cases f with
  | none => rfl
  | some v => exact frameWords_eq v

theorem wordOfBytes_eq (a b : Byte) : wordOfBytes a b = BitVec.ofNat 16 (256 * a.toNat + b.toNat) := by
  apply BitVec.eq_of_toNat_eq
  have := a.isLt
  have := b.isLt
  simp only [wordOfBytes, toNat_append, BitVec.toNat_ofNat]
  omega

theorem textWords_eq (text : List Byte) : textWords text = asWords (textNumbers text) := by
  induction text using textWords.induct with
  | case1 => rfl
  | case2 a => simp [textWords, textNumbers, asWords, wordOfBytes_eq]
  | case3 a b rest ih =>
    have hlen : ((a :: b :: rest).length + 1) / 2 = (rest.length + 1) / 2 + 1 := by
      simp only [List.length_cons]
      omega
    rw [textWords, ih, textNumbers, textNumbers, hlen, List.range_succ_eq_map, wordOfBytes_eq]
    simp only [asWords, List.map_cons, List.map_map]
    congr 1

/-- The first number of a token record: kind, flags and length (R168). -/
def tokenHead (k : Token) : Nat :=
  4096 * (kindCode k.kind).toNat + 2048 * k.sentEnd.toNat + 1024 * k.attach.toNat + k.text.length % 64

theorem tokenNumbers_eq (k : Token) : tokenNumbers k = [tokenHead k, identityNumber k.id] ++
    frameNumbers k.speech ++ frameNumbers k.arrival ++ textNumbers k.text := by
  rw [tokenNumbers, tokenHead]
  cases k.kind <;> rfl

theorem tokenHead_lt (k : Token) : tokenHead k < 16384 := by
  have hkind : (kindCode k.kind).toNat ≤ 3 := by cases k.kind <;> decide
  have := k.sentEnd.toNat_le
  have := k.attach.toNat_le
  rw [tokenHead]
  omega

theorem tokenWords_eq (k : Token) : tokenWords k = asWords (tokenNumbers k) := by
  have hzero : (0 : BitVec 4).toNat = 0 := rfl
  have hhead : kindCode k.kind ++ BitVec.ofBool k.sentEnd ++ BitVec.ofBool k.attach ++ (0 : BitVec 4) ++
      BitVec.ofNat 6 k.text.length = BitVec.ofNat 16 (tokenHead k) := by
    apply BitVec.eq_of_toNat_eq
    rw [BitVec.toNat_ofNat, Nat.mod_eq_of_lt (lt_trans (tokenHead_lt k) (by decide)), tokenHead]
    simp only [toNat_append, toNat_ofBool, hzero, BitVec.toNat_ofNat]
    omega
  rw [tokenWords, tokenNumbers_eq, hhead, identityWord_zero, frameWords_eq, frameWords_eq, textWords_eq]
  simp only [asWords, List.map_append, List.map_cons, List.map_nil]

theorem groupWords_eq (g : GroupRecord) : groupWords g = asWords (groupNumbers g) := by
  rw [groupWords, identityWord_zero]
  rfl

theorem spanWords_eq (sp : Span) : spanWords sp = asWords (spanNumbers sp) := by
  rw [spanWords, identityWord_zero]
  rfl

theorem entryWord_eq (en : StackEntry) : entryWord en = BitVec.ofNat 16 (entryNumber en) := by
  have htag : (tagCode en.tag).toNat = tagNumber en.tag := by cases en.tag <;> rfl
  rw [entryWord, identityWord_eq, htag, entryNumber]

theorem cueWords_eq (q : Cue) : cueWords q = asWords (cueNumbers q) := by
  have hlow : lowWord (frames q.target) = BitVec.ofNat 16 (q.target % 65536) := by
    apply BitVec.eq_of_toNat_eq
    rw [lowWord_eq, frames]
    simp only [BitVec.toNat_ofNat]
    omega
  have hhigh : highWord (frames q.target) = BitVec.ofNat 16 (q.target / 65536) := by
    apply BitVec.eq_of_toNat_eq
    rw [highWord_eq, halves, frames]
    simp only [BitVec.toNat_ofNat]
    omega
  rw [cueWords, cueNumbers, frameWords, hlow, hhigh, zeroExtend_eq]
  cases q.action with
  | handoff lane wait =>
    rw [actionWords, ← ofNat_toNat wait]
    simp only [BitVec.toNat_ofNat, Nat.mod_eq_of_lt wait.isLt]
    rfl
  | delay d =>
    rw [actionWords, ← ofNat_toNat d]
    simp only [BitVec.toNat_ofNat, Nat.mod_eq_of_lt d.isLt]
    rfl
  | hold | resume | clear => rfl

theorem settingsWords_eq (s : State) : settingsWords s = asWords (settings s) := by
  have hmode : BitVec.ofNat 3 (slewCode s.retiming.slewMode) ++ BitVec.ofNat 4 s.retiming.lead ++
      BitVec.ofNat 9 s.retiming.horizon = BitVec.ofNat 16
        (0x2000 * slewCode s.retiming.slewMode + 512 * (s.retiming.lead % 16) +
          s.retiming.horizon % 512) := by
    have hcode : slewCode s.retiming.slewMode ≤ 1 := by cases s.retiming.slewMode <;> decide
    apply BitVec.eq_of_toNat_eq
    simp only [toNat_append, BitVec.toNat_ofNat]
    omega
  have hzero : (0 : BitVec 1).toNat = 0 := rfl
  have hflags : BitVec.ofNat 8 s.composer.layout.width ++ BitVec.ofNat 4 (floorCode s.floor.state) ++
      (0 : BitVec 1) ++ BitVec.ofBool s.retiming.speechTail.isSome ++
      BitVec.ofBool s.laneB.speechLast.isSome ++ BitVec.ofBool s.laneA.speechLast.isSome =
      BitVec.ofNat 16 (256 * (s.composer.layout.width % 256) + 0x10 * floorCode s.floor.state +
        4 * s.retiming.speechTail.isSome.toNat + 2 * s.laneB.speechLast.isSome.toNat +
        s.laneA.speechLast.isSome.toNat) := by
    have hcode : floorCode s.floor.state ≤ 3 := by cases s.floor.state <;> decide
    have := s.retiming.speechTail.isSome.toNat_le
    have := s.laneA.speechLast.isSome.toNat_le
    have := s.laneB.speechLast.isSome.toNat_le
    apply BitVec.eq_of_toNat_eq
    simp only [toNat_append, toNat_ofBool, hzero, BitVec.toNat_ofNat]
    omega
  rw [settingsWords, hmode, hflags, layoutWord_eq, settings, optionalFrameWords_eq,
    optionalFrameWords_eq, optionalFrameWords_eq]
  simp only [asWords, List.map_append, wordOf]
  cases s.retiming.slewMode <;> cases s.floor.state <;> rfl

/-! ### The whole image -/

theorem flatMap_asWords {α : Type} {words : α → List Word} {numbers : α → List Nat}
    (h : ∀ a, words a = asWords (numbers a)) (l : List α) :
    l.flatMap words = asWords (l.flatMap numbers) := by
  rw [asWords, List.map_flatMap]
  exact List.flatMap_congr fun a _ => h a

theorem imageSections_eq (s : State) : imageSections s = asWords (sections s) := by
  have hentry : ∀ st : List StackEntry, st.map entryWord = asWords (st.map entryNumber) := fun st => by
    rw [asWords, List.map_map]
    exact List.map_congr_left fun en _ => entryWord_eq en
  have hcell : s.composer.cells.map cellWord = asWords (s.composer.cells.map cellNumber) := by
    rw [asWords, List.map_map]
    exact List.map_congr_left fun c _ => cellWord_eq c
  rw [imageSections, stackWords, settingsWords_eq, hcell, hentry, hentry]
  simp only [flatMap_asWords tokenWords_eq, flatMap_asWords groupWords_eq, flatMap_asWords spanWords_eq,
    flatMap_asWords cueWords_eq, sections, asWords, List.map_append, List.flatMap_append,
    List.append_assoc, List.cons_append, List.map_cons, List.nil_append, wordOf, pairWord]
  rfl

theorem imageBody_eq (s : State) : imageBody s = asWords (uncheckedImage s) := by
  rw [imageBody, imageSections_eq, frameWords_eq, uncheckedImage]
  simp only [asWords, List.map_append, List.length_map]
  rfl

theorem sum_asWords (ns : List Nat) :
    ((asWords ns).map (·.toNat)).sum % 65536 = ns.sum % 65536 := by
  induction ns with
  | nil => rfl
  | cons n rest ih =>
    simp only [asWords, List.map_cons, List.sum_cons, BitVec.toNat_ofNat] at ih ⊢
    omega

/-- The image a SNAPSHOT writes is that of the statements, in every state. -/
theorem imageOf_eq (s : State) : imageOf s = image s := by
  rw [imageOf, imageBody_eq, checkWord_eq, sum_asWords, image, List.map_append]
  rfl

theorem takeSnapshot_eq (s : State) : takeSnapshot s =
    if s.service = .run ∨ s.image.state = .filling then (s, .state)
    else ({ s with image := { state := .snapshot, words := image s, readPos := 0, overfilled := false } },
      .done) := by
  rw [takeSnapshot, imageOf_eq]

/-! ### Lengths -/

theorem tokenNumbers_length (k : Token) : (tokenNumbers k).length = 6 + (k.text.length + 1) / 2 := by
  simp only [tokenNumbers_eq, frameNumbers, textNumbers, List.length_append, List.length_map,
    List.length_range, List.length_cons, List.length_nil]

theorem cueNumbers_length (q : Cue) : (cueNumbers q).length = 5 := by
  rw [cueNumbers]
  cases q.action <;> rfl

theorem length_flatMap_const {α : Type} {numbers : α → List Nat} {n : Nat}
    (h : ∀ a, (numbers a).length = n) (l : List α) : (l.flatMap numbers).length = n * l.length := by
  rw [List.length_flatMap, List.map_congr_left fun a _ => h a]
  simp [Nat.mul_comm]

theorem settings_length (s : State) : (settings s).length = 16 := by
  have hoption : ∀ f, (optionNumbers f).length = 2 := fun f => by cases f <;> rfl
  simp only [settings, List.length_append, hoption, List.length_cons, List.length_nil]

/-- The words that the queues and the schedule take in an image. -/
def tokensTaken (s : State) : Nat :=
  tokenWordsTaken s.laneA.queue + tokenWordsTaken s.laneB.queue + tokenWordsTaken s.schedule

theorem tokens_length (s : State) :
    ((s.laneA.queue ++ s.laneB.queue ++ s.schedule).flatMap tokenNumbers).length = tokensTaken s := by
  have hone : ∀ ts : List Token, (ts.flatMap tokenNumbers).length = tokenWordsTaken ts := fun ts => by
    rw [List.length_flatMap, tokenWordsTaken]
    exact congrArg List.sum (List.map_congr_left fun k _ => tokenNumbers_length k)
  simp only [List.flatMap_append, List.length_append, hone, tokensTaken]

theorem sections_length (s : State) : (sections s).length = 16 + tokensTaken s +
    s.composer.cells.length + 2 * s.composer.groups.length + 1 + 2 * s.composer.spans.length + 1 +
    s.laneA.stack.length + s.laneB.stack.length + 5 * s.cues.length := by
  simp only [sections, List.length_append, settings_length, tokens_length, List.length_map,
    List.length_reverse, List.length_cons, List.length_nil, length_flatMap_const cueNumbers_length,
    length_flatMap_const (numbers := groupNumbers) (n := 2) fun _ => rfl,
    length_flatMap_const (numbers := spanNumbers) (n := 2) fun _ => rfl]

theorem image_length (s : State) : (image s).length = 9 + (sections s).length := by
  simp only [image, uncheckedImage, frameNumbers, List.length_map, List.length_append, List.length_cons,
    List.length_nil]
  omega

/-- The header of an image (R167). -/
def header (s : State) : List Nat :=
  [0x4A31, (image s).length] ++ frameNumbers s.timebase.e ++
    [256 * s.laneA.queue.length + s.laneB.queue.length,
     256 * s.schedule.length + s.composer.cells.length,
     256 * s.composer.groups.length + s.composer.spans.length, 256 * s.cues.length]

theorem header_length (s : State) : (asWords (header s)).length = 8 := rfl

/-- The image's header, settings, tokens, cells and rest. -/
theorem image_split (s : State) : ∃ rest, image s = asWords (header s) ++
    (asWords (settings s) ++
      (asWords ((s.laneA.queue ++ s.laneB.queue ++ s.schedule).flatMap tokenNumbers) ++
        (asWords (s.composer.cells.map cellNumber) ++ rest))) := by
  have hlen : 8 + (sections s).length + 1 = (image s).length := by
    rw [image_length]
    omega
  refine ⟨asWords (s.composer.groups.flatMap groupNumbers ++
    [s.composer.cursor] ++ s.composer.spans.flatMap spanNumbers ++
    [presenceNumber s] ++ s.laneA.stack.reverse.map entryNumber ++
    s.laneB.stack.reverse.map entryNumber ++ s.cues.flatMap cueNumbers) ++
      [BitVec.ofNat 16 (65536 - (uncheckedImage s).sum % 65536)], ?_⟩
  have himage : image s = asWords (uncheckedImage s) ++
      [BitVec.ofNat 16 (65536 - (uncheckedImage s).sum % 65536)] := by
    rw [image, List.map_append]
    rfl
  rw [header, ← hlen, himage]
  generalize BitVec.ofNat 16 (65536 - (uncheckedImage s).sum % 65536) = check
  simp only [uncheckedImage, sections, asWords, List.map_append, List.append_assoc]

/-- Settles O55: the sections' numbers, their words and their lengths. -/
theorem snapshotWritesAnImage : Obligations.SnapshotWritesAnImage := by
  intro s tag hlow
  have hexec {t : State} {r : Result} (h : takeSnapshot s = (t, r)) :
      exec (.snapshot tag []) s = .next (answered 0x0C tag r t) :=
    exec_of_countAccepted (d := .snapshot) tag hlow rfl h
  obtain ⟨rest, hsplit⟩ := image_split s
  have hlen := image_length s
  rw [sections_length] at hlen
  have hsettings : (asWords (settings s)).length = 16 := by rw [List.length_map, settings_length]
  have htokens := tokens_length s
  rw [← List.length_map (f := BitVec.ofNat 16)] at htokens
  refine ⟨fun h => hexec (by rw [takeSnapshot_eq, if_pos h]), fun hheld hfill => hexec ?_, ?_, ?_, ?_, ?_,
    ?_⟩
  · rw [takeSnapshot_eq, if_neg]
    rintro (h | h)
    · rw [hheld] at h
      cases h
    · exact hfill h
  · rw [hlen, tokensTaken]
    omega
  · rw [← imageOf_eq]
    exact sum_append_checkWord _
  · have hlow : BitVec.ofNat 16 (s.timebase.e.toNat % 65536) = BitVec.ofNat 16 s.timebase.e.toNat :=
      BitVec.eq_of_toNat_eq (by simp)
    rw [← hlow]
    exact (congrArg (List.take 8) hsplit).trans (List.take_left' (header_length s))
  · refine (congrArg (fun ws => (ws.drop 8).take 16) hsplit).trans ?_
    rw [List.drop_left' (header_length s), List.take_left' hsettings]
  · refine (congrArg (fun ws => (ws.drop (24 + tokensTaken s)).take s.composer.cells.length)
      hsplit).trans ?_
    rw [← List.append_assoc, ← List.append_assoc, List.drop_left', List.take_left', asWords, List.map_map]
    · rfl
    · rw [List.length_map, List.length_map]
    · rw [List.length_append, List.length_append, hsettings, htokens, header_length]

end Sys2Proof.Images
end

section
/-! SUPPORT. What the words of an image's records name: the record that they were written from
(R168, R169, R184, R186). -/

namespace Sys2Proof.Images

open Sys2Proof.Machine Sys2Proof.Expect Sys2Proof.Safety Sys2Proof.Accesses Sys2Proof.Words
  Sys2Proof.Records

/-! ### Numbers of words -/

theorem getD_asWords (ns : List Nat) (i : Nat) :
    (asWords ns).getD i 0 = BitVec.ofNat 16 (ns.getD i 0) := by
  rw [asWords, List.getD_eq_getElem?_getD, List.getD_eq_getElem?_getD, List.getElem?_map]
  cases ns[i]? <;> rfl

theorem numberAt_asWords (ns : List Nat) (i : Nat) :
    numberAt (asWords ns) i = ns.getD i 0 % 65536 := by
  rw [numberAt, getD_asWords, BitVec.toNat_ofNat]

/-- A bit of a word that a number is written as. -/
theorem getLsbD_of_bit {n i : Nat} {b : Bool} (hi : i < 16) (h : n / 2 ^ i % 2 = b.toNat) :
    (BitVec.ofNat 16 n).getLsbD i = b := by
  rw [BitVec.getLsbD_ofNat, Nat.testBit_eq_decide_div_mod_eq, h, decide_eq_true hi]
  cases b <;> rfl

/-- A frame's two words. -/
theorem frameOfWords_halves (f : Frame) :
    frameOfWords (BitVec.ofNat 16 (f.toNat % 65536)) (BitVec.ofNat 16 (f.toNat / 65536)) = f := by
  apply BitVec.eq_of_toNat_eq
  have := f.isLt
  simp only [frameOfWords_toNat, BitVec.toNat_ofNat]
  omega

/-! ### Identities and entries -/

theorem identityNumber_lt (id : TokenId) : identityNumber id < 8192 := by
  have := id.serial.isLt
  rw [identityNumber]
  cases id.lane <;> dsimp only <;> omega

theorem idNamed_number (top : Nat) (id : TokenId) :
    idNamed (BitVec.ofNat 16 (8192 * top + identityNumber id)) = id := by
  obtain ⟨x, n⟩ := id
  have hn := n.isLt
  have hserial : ∀ m, m % 65536 % 4096 = n.toNat → BitVec.ofNat 12 (m % 65536 % 4096) = n :=
    fun m hm => BitVec.eq_of_toNat_eq (by rw [hm, BitVec.toNat_ofNat]; omega)
  cases x with
  | a =>
    simp only [idNamed, identityNumber, BitVec.toNat_ofNat]
    rw [if_pos (by omega), hserial _ (by omega)]
  | b =>
    simp only [idNamed, identityNumber, BitVec.toNat_ofNat]
    rw [if_neg (by omega), hserial _ (by omega)]

theorem idNamed_identity (id : TokenId) : idNamed (BitVec.ofNat 16 (identityNumber id)) = id := by
  simpa using idNamed_number 0 id

theorem entryNamed_number (en : StackEntry) :
    entryNamed (BitVec.ofNat 16 (entryNumber en)) = { tag := some en.tag, id := en.id } := by
  have hid := identityNumber_lt en.id
  have hcode : (BitVec.ofNat 16 (entryNumber en)).extractLsb' 13 3 = tagCode en.tag := by
    apply BitVec.eq_of_toNat_eq
    rw [entryNumber, BitVec.extractLsb'_toNat, BitVec.toNat_ofNat, Nat.shiftRight_eq_div_pow]
    cases en.tag <;> simp only [tagNumber, tagCode] <;> simp <;> omega
  rw [entryNamed, hcode, entryNumber, idNamed_number]
  cases en.tag <;> rfl

/-! ### Token records -/

theorem textNumbers_getD (text : List Byte) {i : Nat} (h : i < (text.length + 1) / 2) :
    (textNumbers text).getD i 0 = 256 * (text.getD (2 * i) 0).toNat + (text.getD (2 * i + 1) 0).toNat := by
  rw [textNumbers, List.getD_eq_getElem?_getD, List.getElem?_map, List.getElem?_range h]
  rfl

theorem characters_textNumbers (text : List Byte) :
    characters (asWords (textNumbers text)) text.length = text := by
  refine List.ext_getElem (by simp [characters]) fun i hi hi' => ?_
  have hhalf : i / 2 < (text.length + 1) / 2 := by omega
  have hlow := (text.getD (2 * (i / 2) + 1) 0).isLt
  have hhigh := (text.getD (2 * (i / 2)) 0).isLt
  simp only [characters, List.getElem_map, List.getElem_range, getD_asWords, textNumbers_getD text hhalf,
    BitVec.toNat_ofNat]
  apply BitVec.eq_of_toNat_eq
  split
  · next heven =>
    have hi2 : 2 * (i / 2) = i := by omega
    rw [hi2] at hlow hhigh ⊢
    rw [List.getD_eq_getElem _ _ hi'] at hhigh ⊢
    rw [BitVec.toNat_ofNat]
    omega
  · next hodd =>
    have hi2 : 2 * (i / 2) + 1 = i := by omega
    rw [hi2] at hlow ⊢
    rw [List.getD_eq_getElem _ _ hi'] at hlow ⊢
    rw [BitVec.toNat_ofNat]
    omega

theorem shown_of_accepted {c : Byte} (h : (accepted c || c == blot) = true) : shown c = c := by
  rw [← substitute_eq_shown, substitute]
  split
  · rfl
  · simp_all

/-- A token's text is short, its kind says how short, and every character is shown as it is. -/
theorem textHolds_iff_record {k : Token} (h : textHolds k = true) :
    (k.text.length ≤ 32 ∧ ∀ c ∈ k.text, shown c = c) ∧
      ((k.kind = .word ∧ 1 ≤ k.text.length) ∨ (k.kind ≠ .word ∧ k.text.length = 0)) := by
  rw [textHolds] at h
  cases hkind : k.kind with
  | word =>
    simp only [hkind, Bool.and_eq_true, decide_eq_true_eq, List.all_eq_true] at h
    exact ⟨⟨h.1.2, fun c hc => shown_of_accepted (h.2 c hc)⟩, .inl ⟨rfl, h.1.1⟩⟩
  | speaker | paragraph =>
    simp only [hkind, List.isEmpty_iff] at h
    simp [h]

/-- The words of a token record. -/
def recordOf (k : Token) : List Word := asWords (tokenNumbers k)

theorem recordOf_eq (k : Token) : recordOf k =
    BitVec.ofNat 16 (tokenHead k) :: BitVec.ofNat 16 (identityNumber k.id) ::
      BitVec.ofNat 16 (k.speech.toNat % 65536) :: BitVec.ofNat 16 (k.speech.toNat / 65536) ::
      BitVec.ofNat 16 (k.arrival.toNat % 65536) :: BitVec.ofNat 16 (k.arrival.toNat / 65536) ::
      asWords (textNumbers k.text) := by
  rw [recordOf, tokenNumbers_eq]
  rfl

theorem numberAt_recordOf (k : Token) : numberAt (recordOf k) 0 = tokenHead k := by
  have := tokenHead_lt k
  simp only [numberAt, recordOf_eq, List.getD_cons_zero, BitVec.toNat_ofNat]
  omega

theorem tokenNamed_recordOf {k : Token} (h : textHolds k = true) : tokenNamed (recordOf k) = k := by
  obtain ⟨⟨hlen, hshown⟩, -⟩ := textHolds_iff_record h
  have hhead := numberAt_recordOf k
  have hzero : (recordOf k).getD 0 0 = BitVec.ofNat 16 (tokenHead k) := by rw [recordOf_eq]; rfl
  have hlength : numberAt (recordOf k) 0 % 64 = k.text.length := by
    rw [hhead, tokenHead]
    omega
  have htext : Expect.text (BitVec.ofNat 6 k.text.length) ((recordOf k).drop 6) = k.text := by
    rw [text_of_le hlen, charsOf_eq, substitute_eq_shown,
      show (recordOf k).drop 6 = asWords (textNumbers k.text) by rw [recordOf_eq]; rfl,
      characters_textNumbers]
    exact (List.map_congr_left hshown).trans (List.map_id _)
  have hkind : (kindOfCode (laneKind (BitVec.ofNat 16 (tokenHead k)))).getD .word = k.kind := by
    have hcode : laneKind (BitVec.ofNat 16 (tokenHead k)) = kindCode k.kind := by
      apply BitVec.eq_of_toNat_eq
      have := k.sentEnd.toNat_le
      have := k.attach.toNat_le
      have := (kindCode k.kind).isLt
      rw [laneKind_toNat, BitVec.toNat_ofNat, tokenHead]
      omega
    rw [hcode]
    cases k.kind <;> rfl
  have := k.sentEnd.toNat_le
  have := k.attach.toNat_le
  have hsent : laneSentEnd (BitVec.ofNat 16 (tokenHead k)) = k.sentEnd :=
    getLsbD_of_bit (by decide) (by rw [tokenHead]; omega)
  have hattach : laneAttach (BitVec.ofNat 16 (tokenHead k)) = k.attach :=
    getLsbD_of_bit (by decide) (by rw [tokenHead]; omega)
  rw [tokenNamed, hlength, htext, hzero, hkind, hsent, hattach]
  simp only [recordOf_eq, List.getD_cons_succ, List.getD_cons_zero, idNamed_identity, frameOfWords_halves]

theorem recordFits_recordOf {k : Token} (h : textHolds k = true) : recordFits (recordOf k) := by
  obtain ⟨⟨hlen, -⟩, -⟩ := textHolds_iff_record h
  rw [recordFits, numberAt_recordOf, recordOf, List.length_map, tokenNumbers_length, tokenHead]
  omega

theorem recordNames_recordOf {k : Token} (h : textHolds k = true) : recordNames (recordOf k) := by
  obtain ⟨⟨hlen, -⟩, hkind⟩ := textHolds_iff_record h
  have hcode : (kindCode k.kind).toNat = 1 ∧ k.kind = .word ∨
      ((kindCode k.kind).toNat = 2 ∨ (kindCode k.kind).toNat = 3) ∧ k.kind ≠ .word := by
    cases k.kind <;> decide
  have := k.sentEnd.toNat_le
  have := k.attach.toNat_le
  rw [recordNames, numberAt_recordOf, tokenHead]
  rcases hkind with ⟨hword, hpos⟩ | ⟨hother, hnone⟩
  · rcases hcode with ⟨hcode, -⟩ | ⟨-, hne⟩
    · exact .inl (by omega)
    · exact absurd hword hne
  · rcases hcode with ⟨-, heq⟩ | ⟨hcode, -⟩
    · exact absurd heq hother
    · exact .inr (by omega)

/-! ### Cells, group records, spans and cues -/

theorem cellNamed_number {c : Cell} (h : cellInRange c) :
    cellNamed (BitVec.ofNat 16 (cellNumber c)) = some c := by
  cases c with
  | char code =>
    have hcode : shown code = code := h
    have := code.isLt
    have hkind : (0x1000 + code.toNat) % 2 ^ 16 / 4096 = 1 := by omega
    have hlow : (0x1000 + code.toNat) % 2 ^ 16 % 4096 = code.toNat := by omega
    simp only [cellNamed, cellNumber, BitVec.toNat_ofNat, hkind, hlow, if_pos this, BitVec.ofNat_toNat,
      BitVec.setWidth_eq, hcode]
  | marker | roll | blank => rfl
  | erase k =>
    obtain ⟨hlow, hhigh⟩ : 1 ≤ k ∧ k ≤ 40 := h
    have hkind : (0x4000 + k) % 2 ^ 16 / 4096 = 4 := by omega
    have hcols : (0x4000 + k) % 2 ^ 16 % 4096 = k := by omega
    simp only [cellNamed, cellNumber, BitVec.toNat_ofNat, hkind, hcols, if_pos (And.intro hlow hhigh)]
  | placeRow base depth =>
    obtain ⟨h1, h2, h3, h4⟩ : 1 ≤ base ∧ base ≤ 15 ∧ 2 ≤ depth ∧ depth ≤ 4 := h
    have hkind : (0x6000 + 16 * base + depth) % 2 ^ 16 / 4096 = 6 := by omega
    have hrest : (0x6000 + 16 * base + depth) % 2 ^ 16 % 4096 = 16 * base + depth := by omega
    have hbase : (16 * base + depth) / 16 = base := by omega
    have hdepth : (16 * base + depth) % 16 = depth := by omega
    simp only [cellNamed, cellNumber, BitVec.toNat_ofNat, hkind, hrest, hbase, hdepth]
    rw [if_pos (by omega)]
  | placeCol left width =>
    obtain ⟨h1, h2, h3⟩ : left ≤ 26 ∧ 16 ≤ width ∧ width ≤ 40 := h
    have hkind : (0x7000 + 64 * left + width) % 2 ^ 16 / 4096 = 7 := by omega
    have hrest : (0x7000 + 64 * left + width) % 2 ^ 16 % 4096 = 64 * left + width := by omega
    have hleft : (64 * left + width) / 64 = left := by omega
    have hwidth : (64 * left + width) % 64 = width := by omega
    simp only [cellNamed, cellNumber, BitVec.toNat_ofNat, hkind, hrest, hleft, hwidth]
    rw [if_pos (by omega)]

/-- The two words of a group record. -/
def groupPair (g : GroupRecord) : Word × Word :=
  (BitVec.ofNat 16 (identityNumber g.id), BitVec.ofNat 16 (256 * g.composed + g.taken))

/-- A group record as an image holds it: no S and E_a, columns taken equal to cells taken (R174). -/
def bared (g : GroupRecord) : GroupRecord := { g with counts := none, columnsTaken := g.taken }

theorem groupNamed_pair {g : GroupRecord} (htaken : g.taken < g.composed) (hcomposed : g.composed ≤ 33) :
    groupNamed (groupPair g) = bared g := by
  have h1 : (256 * g.composed + g.taken) % 2 ^ 16 / 256 % 64 = g.composed := by omega
  have h2 : (256 * g.composed + g.taken) % 2 ^ 16 % 64 = g.taken := by omega
  simp only [groupNamed, groupPair, idNamed_identity, BitVec.toNat_ofNat, h1, h2, bared]

/-- The two words of a span. -/
def spanPair (sp : Span) : Word × Word :=
  (BitVec.ofNat 16 (identityNumber sp.id), BitVec.ofNat 16 sp.columns)

theorem spanNamed_pair {sp : Span} (h : sp.columns < 65536) :
    spanNamed (spanPair sp) = { sp with start := 0 } := by
  simp only [spanNamed, spanPair, idNamed_identity, BitVec.toNat_ofNat, Nat.mod_eq_of_lt h]

theorem action_of_cueNumbers (q : Cue) :
    numberAt (asWords (cueNumbers q)) 3 % 256 ≤ 4 := by
  rw [numberAt_asWords, cueNumbers]
  cases q.action <;> simp

/-- The two action words of a cue name the action that the cue keeps when it is loaded. -/
theorem actionNamed_numbers (q : Cue) (epoch : Byte) :
    let r := asWords (cueNumbers q)
    actionNamed (numberAt r 3 % 256) (if numberAt r 3 % 256 = 3
      then [BitVec.ofNat 16 (numberAt r 3 / 256), r.getD 4 0] else [r.getD 4 0]) =
      (loadedCue epoch q).action := by
  simp only [numberAt_asWords, getD_asWords, loadedCue, cueNumbers]
  cases q.action with
  | hold | resume | clear => rfl
  | delay d => simp [actionNamed]
  | handoff lane wait =>
    have hlow : (256 * min lane.toNat 255 + 3) % 65536 % 256 = 3 := by omega
    have hhigh : (256 * min lane.toNat 255 + 3) % 65536 / 256 = min lane.toNat 255 := by omega
    simp only [List.cons_append, List.nil_append, List.getD_cons_succ, List.getD_cons_zero, hlow, hhigh,
      if_pos, ofNat_toNat]
    rfl

theorem cueNamed_numbers {q : Cue} (h : q.target < 4294967296) (epoch : Byte) :
    cueNamed epoch (asWords (cueNumbers q)) = loadedCue epoch q := by
  have htag : numberAt (asWords (cueNumbers q)) 0 = q.tag.toNat := by
    have := q.tag.isLt
    rw [numberAt_asWords, cueNumbers]
    simp only [List.cons_append, List.getD_cons_zero]
    omega
  have htarget : numberAt (asWords (cueNumbers q)) 1 + 65536 * numberAt (asWords (cueNumbers q)) 2 =
      q.target := by
    simp only [numberAt_asWords, cueNumbers, List.cons_append, List.getD_cons_succ, List.getD_cons_zero]
    omega
  rw [cueNamed, htag, htarget, actionNamed_numbers q epoch]
  simp only [loadedCue, BitVec.ofNat_toNat, BitVec.setWidth_eq]

end Sys2Proof.Images
end

section
/-! SUPPORT. The image of a state in order is divided into its records and passes every check of R173. -/

namespace Sys2Proof.Images

open Sys2Proof.Machine Sys2Proof.Expect Sys2Proof.Safety Sys2Proof.Accesses Sys2Proof.Words
  Sys2Proof.Records Sys2Proof.Moves

/-- A state whose image a restore commit accepts, and loads unchanged. -/
structure Loadable (i : State) : Prop where
  settings : SettingsHold i
  floor : FloorHolds i
  pipeline : PipelineHolds i
  order : inOrder i

variable {i : State}

/-! ### The words of an image, place by place -/

/-- The numbers of an image behind its settings and ahead of its check word. -/
def bodyNumbers (i : State) : List Nat :=
  (i.laneA.queue ++ i.laneB.queue ++ i.schedule).flatMap tokenNumbers ++
  i.composer.cells.map cellNumber ++ i.composer.groups.flatMap groupNumbers ++
  [i.composer.cursor] ++ i.composer.spans.flatMap spanNumbers ++
  [presenceNumber i] ++ i.laneA.stack.reverse.map entryNumber ++
  i.laneB.stack.reverse.map entryNumber ++ i.cues.flatMap cueNumbers

theorem image_eq (i : State) : ∃ check, image i =
    asWords (header i ++ settings i) ++ (asWords (bodyNumbers i) ++ [check]) := by
  have hlen : 8 + (sections i).length + 1 = (image i).length := by
    rw [image_length]
    omega
  have himage : image i = asWords (uncheckedImage i) ++
      [BitVec.ofNat 16 (65536 - (uncheckedImage i).sum % 65536)] := by
    rw [image, List.map_append]
    rfl
  refine ⟨BitVec.ofNat 16 (65536 - (uncheckedImage i).sum % 65536), ?_⟩
  rw [header, ← hlen, himage]
  generalize BitVec.ofNat 16 (65536 - (uncheckedImage i).sum % 65536) = check
  simp only [uncheckedImage, sections, bodyNumbers, asWords, List.map_append, List.append_assoc]

theorem header_settings_length (i : State) : (header i ++ settings i).length = 24 := by
  rw [List.length_append, settings_length]
  rfl

theorem getD_image {n : Nat} (h : n < 24) :
    (image i).getD n 0 = BitVec.ofNat 16 ((header i ++ settings i).getD n 0) := by
  obtain ⟨check, himage⟩ := image_eq i
  rw [himage, List.getD_append, getD_asWords]
  rwa [List.length_map, header_settings_length]

theorem numberAt_image {n : Nat} (h : n < 24) :
    numberAt (image i) n = (header i ++ settings i).getD n 0 % 65536 := by
  rw [numberAt, getD_image h, BitVec.toNat_ofNat]

theorem body_image (i : State) : ((image i).drop 24).dropLast = asWords (bodyNumbers i) := by
  obtain ⟨check, himage⟩ := image_eq i
  rw [himage, List.drop_left', List.dropLast_concat]
  rw [List.length_map, header_settings_length]

/-! ### The division -/

/-- The records of an image, as they were written. -/
def divisionOf (i : State) : Division :=
  { queueA := i.laneA.queue.map recordOf, queueB := i.laneB.queue.map recordOf
    schedule := i.schedule.map recordOf, cells := asWords (i.composer.cells.map cellNumber)
    groups := i.composer.groups.map groupPair, cursor := BitVec.ofNat 16 i.composer.cursor
    spans := i.composer.spans.map spanPair, presence := BitVec.ofNat 16 (presenceNumber i)
    entriesA := asWords (i.laneA.stack.reverse.map entryNumber)
    entriesB := asWords (i.laneB.stack.reverse.map entryNumber)
    cues := i.cues.map fun q => asWords (cueNumbers q) }

theorem divisionOf_records (i : State) :
    (divisionOf i).records = (i.laneA.queue ++ i.laneB.queue ++ i.schedule).map recordOf := by
  simp only [Division.records, divisionOf, List.map_append]

theorem Loadable.texts (h : Loadable i) :
    ∀ k ∈ i.laneA.queue ++ i.laneB.queue ++ i.schedule, textHolds k = true := by
  obtain ⟨-, -, -, ⟨ha, hb, hs⟩, -⟩ := h.pipeline
  simp only [List.forall_mem_append]
  exact ⟨⟨fun k hk => (ha k hk).1, fun k hk => (hb k hk).1⟩, hs⟩

/-- The lengths of the lists of a state in order. -/
theorem Loadable.lengths (h : Loadable i) :
    i.laneA.queue.length ≤ 48 ∧ i.laneB.queue.length ≤ 48 ∧ i.schedule.length ≤ 96 ∧
      i.composer.cells.length ≤ 64 ∧ i.composer.groups.length ≤ 64 ∧ i.composer.spans.length ≤ 40 ∧
      i.laneA.stack.length ≤ 8 ∧ i.laneB.stack.length ≤ 8 ∧ i.cues.length ≤ 8 := by
  have hline := ((pipelineHolds_iff i).mp h.pipeline).1
  obtain ⟨-, ⟨hqa, hqb, hsched, hsa, hsb, hcues⟩, -, -, ⟨-, -, hgroups⟩, -⟩ := h.pipeline
  exact ⟨hqa, hqb, hsched, h.order.1, hgroups, hline.composer.spans_le, hsa, hsb, hcues⟩

theorem placesMarked_mask {n : Nat} (h : n ≤ 8) : placesMarked (2 ^ n - 1) = n := by
  have hall : ∀ m < 9, placesMarked (2 ^ m - 1) = m := by decide
  exact hall n (by omega)

theorem two_pow_le {n : Nat} (h : n ≤ 8) : 2 ^ n ≤ 256 := Nat.pow_le_pow_right (by decide) h

theorem presence_bytes (h : Loadable i) :
    (BitVec.ofNat 16 (presenceNumber i)).toNat % 256 = 2 ^ i.laneA.stack.length - 1 ∧
      (BitVec.ofNat 16 (presenceNumber i)).toNat / 256 = 2 ^ i.laneB.stack.length - 1 := by
  obtain ⟨-, -, -, -, -, -, ha, hb, -⟩ := h.lengths
  have := two_pow_le ha
  have := two_pow_le hb
  rw [BitVec.toNat_ofNat, presenceNumber]
  omega

/-- The header's counts are those of the division (R167). -/
theorem divides_image (h : Loadable i) : divides (image i) (divisionOf i) := by
  obtain ⟨hqa, hqb, hsched, hcells, hgroups, hspans, hsa, hsb, hcues⟩ := h.lengths
  obtain ⟨hlow, hhigh⟩ := presence_bytes h
  have hfour : numberAt (image i) 4 = (256 * i.laneA.queue.length + i.laneB.queue.length) % 65536 :=
    numberAt_image (by decide)
  have hfive : numberAt (image i) 5 = (256 * i.schedule.length + i.composer.cells.length) % 65536 :=
    numberAt_image (by decide)
  have hsix : numberAt (image i) 6 = (256 * i.composer.groups.length + i.composer.spans.length) % 65536 :=
    numberAt_image (by decide)
  have hseven : numberAt (image i) 7 = (256 * i.cues.length) % 65536 := numberAt_image (by decide)
  refine ⟨?_, ?_, ?_, ?_, ?_, ?_⟩
  · have hrecords : (divisionOf i).records.flatten =
        asWords ((i.laneA.queue ++ i.laneB.queue ++ i.schedule).flatMap tokenNumbers) := by
      rw [divisionOf_records, ← List.flatMap_def]
      exact flatMap_asWords (fun _ => rfl) _
    have hgroupWords : (divisionOf i).groups.flatMap (fun p => [p.1, p.2]) =
        asWords (i.composer.groups.flatMap groupNumbers) := by
      rw [divisionOf, List.flatMap_map]
      exact flatMap_asWords (words := fun g => [(groupPair g).1, (groupPair g).2]) (fun _ => rfl) _
    have hspanWords : (divisionOf i).spans.flatMap (fun p => [p.1, p.2]) =
        asWords (i.composer.spans.flatMap spanNumbers) := by
      rw [divisionOf, List.flatMap_map]
      exact flatMap_asWords (words := fun sp => [(spanPair sp).1, (spanPair sp).2]) (fun _ => rfl) _
    have hcueWords : (divisionOf i).cues.flatten = asWords (i.cues.flatMap cueNumbers) := by
      rw [divisionOf, ← List.flatMap_def]
      exact flatMap_asWords (fun _ => rfl) _
    rw [body_image, hrecords, hgroupWords, hspanWords, hcueWords, bodyNumbers]
    simp only [asWords, List.map_append, List.map_cons, List.map_nil]
    rfl
  · rw [hfour, hfive, hsix, hseven]
    simp only [divisionOf, asWords, List.length_map]
    omega
  · rw [divisionOf_records]
    exact List.forall_mem_map.mpr fun k hk => recordFits_recordOf (h.texts k hk)
  · simp only [divisionOf, asWords, List.length_map, List.length_reverse, hlow, placesMarked_mask hsa]
  · simp only [divisionOf, asWords, List.length_map, List.length_reverse, hhigh, placesMarked_mask hsb]
  · exact List.forall_mem_map.mpr fun q _ => by rw [List.length_map, cueNumbers_length]

/-! ### The sections -/

/-- The sections that a restore commit reads from the image of a state in order. -/
def sectionsOf (epoch : Byte) (i : State) : ImageSections :=
  { queueA := i.laneA.queue, queueB := i.laneB.queue, schedule := i.schedule,
    cells := i.composer.cells, groups := i.composer.groups.map bared, cursor := i.composer.cursor,
    spans := i.composer.spans.map fun sp => { sp with start := 0 },
    stackA := i.laneA.stack.reverse.map fun en => { tag := some en.tag, id := en.id },
    stackB := i.laneB.stack.reverse.map fun en => { tag := some en.tag, id := en.id },
    cues := i.cues.map (loadedCue epoch) }

theorem map_recordOf (h : Loadable i) {ts : List Token}
    (hts : ts ⊆ i.laneA.queue ++ i.laneB.queue ++ i.schedule) :
    (ts.map recordOf).map tokenNamed = ts := by
  rw [List.map_map]
  exact (List.map_congr_left fun k hk => tokenNamed_recordOf (h.texts k (hts hk))).trans (List.map_id _)

theorem filterMap_cells (h : Loadable i) :
    (asWords (i.composer.cells.map cellNumber)).filterMap cellNamed = i.composer.cells := by
  obtain ⟨-, hcells, -⟩ := h.order
  rw [asWords, List.map_map, List.filterMap_map]
  exact (List.filterMap_congr fun c hc => cellNamed_number (hcells c hc)).trans List.filterMap_some

theorem map_entries (st : List StackEntry) :
    (asWords (st.map entryNumber)).map entryNamed = st.map fun en => { tag := some en.tag, id := en.id } := by
  rw [asWords, List.map_map, List.map_map]
  exact List.map_congr_left fun en _ => entryNamed_number en

/-- The spans of a state in order are at most as wide as the window. -/
theorem Loadable.columns_le (h : Loadable i) : i.composer.cursor ≤ 40 ∧
    ∀ sp ∈ i.composer.spans, sp.columns ≤ 40 := by
  have hc := ((pipelineHolds_iff i).mp h.pipeline).1.composer
  have hcursor := hc.cursor
  have hwidth := hc.width
  have hrange := hc.layout_range
  have hle : (lineOf i).composer.cursor ≤ 40 := hwidth.trans hrange.2
  refine ⟨hle, fun sp hsp => ?_⟩
  have := List.single_le_sum (fun _ _ => Nat.zero_le _) sp.columns (List.mem_map_of_mem hsp)
  exact (this.trans_eq hcursor.symm).trans hle

theorem Loadable.groups_hold (h : Loadable i) :
    ∀ g ∈ i.composer.groups, g.taken < g.composed ∧ g.composed ≤ 33 := by
  obtain ⟨-, -, -, -, ⟨htaken, -, -⟩, -⟩ := h.pipeline
  obtain ⟨-, -, hcomposed, -⟩ := h.order
  exact fun g hg => ⟨htaken g hg, hcomposed g hg⟩

theorem sectionsNamed_divisionOf (h : Loadable i) (epoch : Byte) :
    sectionsNamed epoch (divisionOf i) = sectionsOf epoch i := by
  obtain ⟨hcursor, hcolumns⟩ := h.columns_le
  obtain ⟨-, -, -, -, -, -, -, -, -, htargets⟩ := h.order
  have hgroups : (i.composer.groups.map groupPair).map groupNamed = i.composer.groups.map bared := by
    rw [List.map_map]
    exact List.map_congr_left fun g hg => groupNamed_pair (h.groups_hold g hg).1 (h.groups_hold g hg).2
  have hspans : (i.composer.spans.map spanPair).map spanNamed =
      i.composer.spans.map fun sp => { sp with start := 0 } := by
    rw [List.map_map]
    exact List.map_congr_left fun sp hsp => spanNamed_pair (lt_of_le_of_lt (hcolumns sp hsp) (by decide))
  have hcues : (i.cues.map fun q => asWords (cueNumbers q)).map (cueNamed epoch) =
      i.cues.map (loadedCue epoch) := by
    rw [List.map_map]
    exact List.map_congr_left fun q hq => cueNamed_numbers (htargets q hq) epoch
  have hcursorWord : (BitVec.ofNat 16 i.composer.cursor).toNat = i.composer.cursor := by
    rw [BitVec.toNat_ofNat]
    omega
  simp only [sectionsNamed, divisionOf, map_entries, filterMap_cells h, hgroups, hspans, hcues,
    hcursorWord, sectionsOf]
  rw [map_recordOf h (by simp), map_recordOf h (by simp), map_recordOf h (by simp)]

theorem readable_divisionOf (h : Loadable i) : readable (divisionOf i) := by
  obtain ⟨-, hcells, -⟩ := h.order
  refine ⟨?_, ?_, List.forall_mem_map.mpr fun q _ => action_of_cueNumbers q⟩
  · rw [divisionOf_records]
    exact List.forall_mem_map.mpr fun k hk => recordNames_recordOf (h.texts k hk)
  · refine List.forall_mem_map.mpr (List.forall_mem_map.mpr fun c hc => ?_)
    rw [cellNamed_number (hcells c hc)]
    rfl

/-! ### The settings (R167, R186) -/

/-- Settings word 6: slew mode, lead and horizon. -/
def modeNumber (i : State) : Nat :=
  0x2000 * slewCode i.retiming.slewMode + 512 * (i.retiming.lead % 16) + i.retiming.horizon % 512

/-- Settings word 8: width, floor state and what is set. -/
def flagsNumber (i : State) : Nat :=
  256 * (i.composer.layout.width % 256) + 0x10 * floorCode i.floor.state +
    4 * i.retiming.speechTail.isSome.toNat + 2 * i.laneB.speechLast.isSome.toNat +
    i.laneA.speechLast.isSome.toNat

theorem optionNumbers_eq (f : Option Frame) : optionNumbers f = frameNumbers (f.getD 0) := by
  cases f <;> rfl

theorem settings_eq (i : State) : settings i =
    [i.retiming.delayTarget, i.retiming.delayEff, i.laneA.lagTarget, i.laneA.lagEff,
     i.laneB.lagTarget, i.laneB.lagEff, modeNumber i,
     4096 * (i.composer.layout.base % 16) + 256 * (i.composer.layout.depth % 16) +
       i.composer.layout.left % 256, flagsNumber i, i.floor.timer] ++
    frameNumbers (i.laneA.speechLast.getD 0) ++ frameNumbers (i.laneB.speechLast.getD 0) ++
    frameNumbers (i.retiming.speechTail.getD 0) := by
  rw [← optionNumbers_eq, ← optionNumbers_eq, ← optionNumbers_eq, settings, modeNumber, flagsNumber]
  cases i.retiming.slewMode <;> cases i.floor.state <;> rfl

/-- Word `n` of an image's settings. -/
theorem numberAt_settings {n : Nat} (h : n < 16) :
    numberAt (image i) (8 + n) = (settings i).getD n 0 % 65536 := by
  have hheader : (header i).length = 8 := rfl
  rw [numberAt_image (by omega), List.getD_append_right _ _ _ _ (hheader ▸ Nat.le_add_right 8 n), hheader,
    Nat.add_sub_cancel_left]

theorem floorCode_le (f : FloorState) : floorCode f ≤ 3 := by cases f <;> decide

theorem flags_bounds (i : State) : flagsNumber i < 65536 ∧
    flagsNumber i / 256 = i.composer.layout.width % 256 := by
  have := floorCode_le i.floor.state
  have := i.retiming.speechTail.isSome.toNat_le
  have := i.laneA.speechLast.isSome.toNat_le
  have := i.laneB.speechLast.isSome.toNat_le
  rw [flagsNumber]
  omega

theorem layout_ranges {l : Layout} (h : layoutValid l = true) :
    l.base < 16 ∧ l.depth < 16 ∧ l.left < 256 ∧ l.width < 256 := by
  have hlayout := (Directives.layoutValid_eq l.base l.depth l.left l.width).symm.trans h
  rw [validLayout, decide_eq_true_eq] at hlayout
  omega

theorem imageLayout_image (h : Loadable i) : imageLayout (image i) = i.composer.layout := by
  obtain ⟨hlayout, -⟩ := h.pipeline
  obtain ⟨hbase, hdepth, hleft, hwidth⟩ := layout_ranges hlayout
  obtain ⟨hflags, hhigh⟩ := flags_bounds i
  have h15 : numberAt (image i) 15 = (4096 * (i.composer.layout.base % 16) +
      256 * (i.composer.layout.depth % 16) + i.composer.layout.left % 256) % 65536 := by
    rw [numberAt_settings (n := 7) (by decide), settings_eq]
    rfl
  have h16 : numberAt (image i) 16 = flagsNumber i % 65536 := by
    rw [numberAt_settings (n := 8) (by decide), settings_eq]
    rfl
  rw [imageLayout_eq, h15, h16, Nat.mod_eq_of_lt hflags, hhigh]
  generalize i.composer.layout = l at *
  obtain ⟨base, depth, left, width⟩ := l
  simp only [Layout.mk.injEq] at *
  omega

/-! ### Every check passes (R173) -/

theorem runsStand_bared {gs : List GroupRecord} {cs : List Cell} (h : runsStand gs cs) :
    runsStand (gs.map bared) cs := by
  induction gs generalizing cs with
  | nil => exact h
  | cons g rest ih =>
    obtain ⟨front, own, back, hcs, hfront, hlen, hown, hmarker, hback⟩ := h
    exact ⟨front, own, back, hcs, hfront, hlen, hown, hmarker, ih hback⟩

/-- A tag that fits and is live names a token, a span or a group record (R114). -/
theorem named_of_fitting {en : StackEntry} (hfits : en.tag = fittingTag i en)
    (hlive : liveTag (some en.tag) = true) :
    en.id ∈ tokenIdsOf i ++ groupIdsOf i ++ spanIdsOf i := by
  rw [fittingTag] at hfits
  simp only [tokenIdsOf, groupIdsOf, spanIdsOf, List.map_append, List.mem_append] at *
  split_ifs at hfits with hqueue hsched hspan hgroup hclosed
  · exact .inl (.inl (.inl hqueue))
  · exact .inl (.inl (.inr hsched))
  · exact .inr hspan
  · exact .inl (.inr hgroup)
  · rw [hfits] at hlive
    cases hlive
  · rw [hfits] at hlive
    cases hlive

theorem sectionsPass_image (h : Loadable i) (epoch : Byte) :
    SectionsPass (imageLayout (image i)) (sectionsOf epoch i) := by
  obtain ⟨hlayout, -, ⟨hcursor, hwidth, hcolumns⟩, ⟨hta, htb, -⟩, -, hgroupIds, hspanIds, hentryIds, hla,
    hlb⟩ := h.pipeline
  obtain ⟨-, -, -, hruns, htail, htags, -⟩ := h.order
  have htokens : tokenIds (sectionsOf epoch i) = tokenIdsOf i := rfl
  have hgroups : (sectionsOf epoch i).groups.map (·.id) = groupIdsOf i := by
    rw [sectionsOf, List.map_map]
    rfl
  have hspans : (sectionsOf epoch i).spans.map (·.id) = spanIdsOf i := by
    rw [sectionsOf, List.map_map]
    rfl
  have hcols : (sectionsOf epoch i).spans.map (·.columns) = i.composer.spans.map (·.columns) := by
    rw [sectionsOf, List.map_map]
    rfl
  have hentries : ((sectionsOf epoch i).stackA ++ (sectionsOf epoch i).stackB).map (·.id) =
      (i.laneA.stack.map (·.id)).reverse ++ (i.laneB.stack.map (·.id)).reverse := by
    simp only [sectionsOf, List.map_append, List.map_map, List.map_reverse]
    rfl
  have hall : ∀ {p : ImageEntry → Prop} {st : List StackEntry},
      (∀ en ∈ st, p { tag := some en.tag, id := en.id }) →
        ∀ en ∈ st.reverse.map (fun en : StackEntry => ImageEntry.mk (some en.tag) en.id), p en :=
    fun hp => List.forall_mem_map.mpr fun en hen => hp en (List.mem_reverse.mp hen)
  rw [imageLayout_image h]
  refine ⟨⟨fun t ht => (hta t ht).2, fun t ht => (htb t ht).2⟩, ?_, hlayout,
    List.forall_mem_map.mpr h.groups_hold, runsStand_bared hruns, ⟨hwidth, ?_, ?_⟩, ?_, hall hla, hall hlb,
    ?_⟩
  · rw [htokens, hgroups, hspans, hentries]
    refine ⟨hgroupIds, hspanIds, ?_⟩
    rw [((List.reverse_perm _).append (List.reverse_perm _)).nodup_iff, ← List.map_append]
    exact hentryIds
  · rw [hcols]
    exact hcursor
  · exact List.forall_mem_map.mpr hcolumns
  · intro sp hsp
    rw [hgroups]
    rw [sectionsOf, List.getLast?_map, Option.mem_map] at hsp
    obtain ⟨last, hlast, rfl⟩ := hsp
    obtain ⟨left, hleft⟩ := List.getLast?_eq_some_iff.mp hlast
    obtain ⟨hnamed, hunnamed⟩ := htail left last hleft
    dsimp only
    split_ifs with hmem
    · obtain ⟨⟨ahead, g, hgs, hid⟩, front, c, hcells, hc⟩ := hnamed hmem
      refine ⟨?_, c, ?_, hc⟩
      · rw [groupIdsOf, hgs, List.map_append, List.map_singleton, List.getLast?_concat, hid]
      · exact List.getLast?_eq_some_iff.mpr ⟨front, hcells⟩
    · obtain ⟨hlen, herase⟩ := hunnamed hmem
      refine ⟨hlen, fun c hc => ?_⟩
      obtain ⟨k, rfl⟩ := herase c hc
      rfl
  · rw [htokens, hgroups, hspans]
    intro en hen hlive
    rcases List.mem_append.mp hen with hen | hen
    · exact hall (p := fun en => liveTag en.tag = true → en.id ∈ _) (fun en hen hl =>
        named_of_fitting (htags en (List.mem_append_left _ hen)) hl) en hen hlive
    · exact hall (p := fun en => liveTag en.tag = true → en.id ∈ _) (fun en hen hl =>
        named_of_fitting (htags en (List.mem_append_right _ hen)) hl) en hen hlive

/-- The image of a state in order has no more words than its length word counts (R167). -/
theorem image_length_lt (h : Loadable i) : (image i).length < 65536 := by
  have hlens := h.lengths
  have htokens : ∀ ts : List Token, (∀ k ∈ ts, textHolds k = true) → tokenWordsTaken ts ≤ 23 * ts.length := by
    intro ts hts
    induction ts with
    | nil => exact le_refl _
    | cons k rest ih =>
      obtain ⟨⟨hlen, -⟩, -⟩ := textHolds_iff_record (hts k (by simp))
      have := ih fun q hq => hts q (by simp [hq])
      simp only [tokenWordsTaken, List.map_cons, List.sum_cons, List.length_cons] at this ⊢
      omega
  have htexts := h.texts
  simp only [List.forall_mem_append] at htexts
  obtain ⟨⟨hta, htb⟩, hts⟩ := htexts
  have := htokens _ hta
  have := htokens _ htb
  have := htokens _ hts
  rw [image_length, sections_length, tokensTaken]
  omega

theorem image_sum (i : State) : ((image i).map (·.toNat)).sum % 65536 = 0 := by
  rw [← imageOf_eq]
  exact sum_append_checkWord _

/-- The image of a state in order, collected by a fill, passes every check. -/
theorem validImage_image (h : Loadable i) {b : ImageBuffer} (hwords : b.words = image i)
    (hfull : b.overfilled = false) (epoch : Byte) :
    validImage epoch b = some (sectionsOf epoch i) := by
  obtain ⟨hqa, hqb, hsched, hcells, hgroups, hspans, -, -, hcues⟩ := h.lengths
  have hlen := image_length_lt h
  have hlong := image_length i
  have hsettings := sections_length i
  refine (validImage_eq_some_iff _ _ _).mpr ⟨?_, divisionOf i, ?_, ?_, ?_, ?_⟩
  · rw [headerPasses, hwords]
    refine ⟨?_, ?_, hfull, by omega, image_sum i⟩
    · rw [numberAt_image (by decide)]
      rfl
    · rw [numberAt_image (by decide)]
      exact Nat.mod_eq_of_lt hlen
  · rw [hwords]
    exact divides_image h
  · simp only [countsPass, divisionOf, asWords, List.length_map]
    exact ⟨hqa, hqb, hsched, hcells, hgroups, hspans, hcues⟩
  · rw [hwords]
    refine (sectionsPass_iff (epoch := epoch) (readable_divisionOf h)).mp ?_
    rw [sectionsNamed_divisionOf h]
    exact sectionsPass_image h epoch
  · rw [sectionsNamed_divisionOf h]

end Sys2Proof.Images
end

section
/-! SUPPORT. The image of a state in order loads that state, rebased (R174), settled. -/

namespace Sys2Proof.Images

open Sys2Proof.Machine Sys2Proof.Expect Sys2Proof.Safety Sys2Proof.Accesses Sys2Proof.Words
  Sys2Proof.Records Sys2Proof.Moves Sys2Proof.Effects Sys2Proof.FloorAndHandoff

variable {i : State}

/-! ### Settings -/

theorem frame_image (i : State) :
    frameOfWords ((image i).getD 2 0) ((image i).getD 3 0) = i.timebase.e := by
  rw [getD_image (by decide), getD_image (by decide)]
  exact frameOfWords_halves _

/-- A presence flag of the image with the two words of the value. -/
theorem loadFrame_image {n b : Nat} {f : Option Frame} (hn : n + 1 < 16)
    (hlow : (settings i).getD n 0 = (frameNumbers (f.getD 0)).getD 0 0)
    (hhigh : (settings i).getD (n + 1) 0 = (frameNumbers (f.getD 0)).getD 1 0)
    (hb : b < 16) (hflag : flagsNumber i / 2 ^ b % 2 = f.isSome.toNat) (shift : Frame) :
    loadFrame (((image i).getD 16 0).getLsbD b) ((image i).getD (8 + n) 0)
      ((image i).getD (8 + n + 1) 0) shift = f.map (· + shift) := by
  have hheader : (header i).length = 8 := rfl
  have hplace : ∀ m < 16, (image i).getD (8 + m) 0 = BitVec.ofNat 16 ((settings i).getD m 0) := by
    intro m hm
    rw [getD_image (by omega), List.getD_append_right _ _ _ _ (hheader ▸ Nat.le_add_right 8 m), hheader,
      Nat.add_sub_cancel_left]
  have hpresent : ((image i).getD 16 0).getLsbD b = f.isSome := by
    rw [hplace 8 (by decide), settings_eq]
    exact getLsbD_of_bit hb hflag
  rw [hpresent, hplace n (by omega), Nat.add_assoc, hplace (n + 1) hn, hlow, hhigh]
  cases f with
  | none => rfl
  | some v => exact congrArg (fun w => some (w + shift)) (frameOfWords_halves v)

theorem loadFloor_image (h : Loadable i) :
    loadFloor (field ((image i).getD 16 0) 4 4) ((image i).getD 17 0) = i.floor := by
  obtain ⟨htimer, hzero⟩ := h.floor
  have hcode : field ((image i).getD 16 0) 4 4 = floorCode i.floor.state := by
    have h16 : numberAt (image i) 16 = flagsNumber i % 65536 := by
      rw [numberAt_settings (n := 8) (by decide), settings_eq]
      rfl
    have := floorCode_le i.floor.state
    have := i.retiming.speechTail.isSome.toNat_le
    have := i.laneA.speechLast.isSome.toNat_le
    have := i.laneB.speechLast.isSome.toNat_le
    rw [field_eq, ← numberAt, h16, flagsNumber]
    omega
  have hword : ((image i).getD 17 0).toNat = i.floor.timer := by
    rw [← numberAt, numberAt_settings (n := 9) (by decide), settings_eq]
    exact Nat.mod_eq_of_lt (show i.floor.timer < 65536 by omega)
  rw [hcode]
  generalize i.floor = f at *
  obtain ⟨state, timer⟩ := f
  cases state with
  | floorA | floorB =>
    have hnone : timer = 0 := hzero rfl
    subst hnone
    rfl
  | passingAB | passingBA => simp only [loadFloor, floorCode, hword, min_eq_left htimer]

/-! ### The schedule in speech order (R70) -/

theorem precedes_add (a b shift : Frame) : precedes (a + shift) (b + shift) = precedes a b := by
  have : b + shift - (a + shift) = b - a := by bv_omega
  rw [precedes, precedes, this]

theorem clampSpeech_of_not_precedes {before : Option Frame} {speech : Frame}
    (h : ∀ b ∈ before, precedes speech b = false) : clampSpeech before speech = speech := by
  cases before with
  | none => rfl
  | some b => simp [clampSpeech, h b rfl]

theorem orderSchedule_of_ordered {before : Option Frame} {ts : List Token}
    (hbefore : ∀ b ∈ before, ∀ t ∈ ts.head?, precedes t.speech b = false)
    (hts : ∀ front t u back, ts = front ++ t :: u :: back → precedes u.speech t.speech = false) :
    orderSchedule before ts = ts := by
  induction ts generalizing before with
  | nil => rfl
  | cons t rest ih =>
    have hsame : clampSpeech before t.speech = t.speech :=
      clampSpeech_of_not_precedes fun b hb => hbefore b hb t rfl
    rw [orderSchedule, hsame, ih]
    · rintro b ⟨⟩ u hu
      cases rest with
      | nil => cases hu
      | cons v more =>
        obtain rfl : v = u := by simpa using hu
        exact hts [] t v more rfl
    · exact fun front v u back heq => hts (t :: front) v u back (by rw [heq]; rfl)

theorem orderSchedule_image (h : Loadable i) (shift : Frame) :
    orderSchedule none (i.schedule.map (rebaseToken shift)) = i.schedule.map (moved shift) := by
  obtain ⟨-, -, -, -, -, -, hsched, -⟩ := h.order
  refine orderSchedule_of_ordered nofun fun front t u back heq => ?_
  obtain ⟨l₁, l₂, hl, -, h₂⟩ := List.map_eq_append_iff.mp heq
  obtain ⟨t', l₃, rfl, rfl, h₃⟩ := List.map_eq_cons_iff.mp h₂
  obtain ⟨u', l₄, rfl, rfl, -⟩ := List.map_eq_cons_iff.mp h₃
  exact (precedes_add _ _ _).trans (hsched l₁ t' u' l₄ hl)

theorem loadTail_image (h : Loadable i) (shift : Frame) :
    loadTail (i.retiming.speechTail.map (· + shift)) (i.schedule.map (moved shift)) =
      i.retiming.speechTail.map (· + shift) := by
  obtain ⟨-, -, -, -, -, -, -, htail, -⟩ := h.order
  rw [loadTail, List.getLast?_map]
  cases hlast : i.schedule.getLast? with
  | none => rfl
  | some t =>
    obtain ⟨front, hfront⟩ := List.getLast?_eq_some_iff.mp hlast
    obtain ⟨tail, hsome, hprecedes⟩ := htail front t hfront
    have : precedes (tail + shift) (t.speech + shift) = false := (precedes_add _ _ _).trans hprecedes
    simp [hsome, moved, this]

/-! ### The stacks and the row -/

theorem any_id_iff {α : Type} (l : List α) (f : α → TokenId) (id : TokenId) :
    (l.any fun a => f a == id) = true ↔ id ∈ l.map f := by
  simp [List.any_eq_true, List.mem_map]

/-- The tag that a loaded entry derives is the one that fits (R114). -/
theorem derivedTag_image (h : Loadable i) {x : Lane} {en : StackEntry} (hen : en ∈ (laneOf x i).stack)
    (shift : Frame) (epoch : Byte) :
    derivedTag ((laneOf x i).queue.map (moved shift)) (i.schedule.map (moved shift))
      (sectionsOf epoch i).groups (sectionsOf epoch i).spans { tag := some en.tag, id := en.id } = en.tag := by
  obtain ⟨-, -, -, -, -, htags, -⟩ := h.order
  have hline := ((pipelineHolds_iff i).mp h.pipeline).1
  have hlane : en.id.lane = x := (hline.stack_state x).2.2 en hen
  have hfits : en.tag = fittingTag i en := htags en (by
    cases x with
    | a => exact List.mem_append_left _ hen
    | b => exact List.mem_append_right _ hen)
  have hids : ∀ ts : List Token, (ts.map (moved shift)).map (·.id) = ts.map (·.id) := fun ts => by
    rw [List.map_map]
    rfl
  have hqueue : en.id ∈ (laneOf x i).queue.map (·.id) ↔
      en.id ∈ (i.laneA.queue ++ i.laneB.queue).map (·.id) := by
    have hother : ∀ y, en.id ∈ (laneOf y i).queue.map (·.id) → y = x := by
      intro y hy
      obtain ⟨k, hk, heq⟩ := List.mem_map.mp hy
      rw [← ((hline.queue_state y).2.1 k hk).2, heq, hlane]
    rw [List.map_append, List.mem_append]
    constructor
    · intro hmem
      cases x with
      | a => exact .inl hmem
      | b => exact .inr hmem
    · rintro (hmem | hmem)
      · obtain rfl := hother .a hmem
        exact hmem
      · obtain rfl := hother .b hmem
        exact hmem
  have hgroups : (sectionsOf epoch i).groups.map (·.id) = i.composer.groups.map (·.id) := by
    rw [sectionsOf, List.map_map]
    rfl
  have hspans : (sectionsOf epoch i).spans.map (·.id) = i.composer.spans.map (·.id) := by
    rw [sectionsOf, List.map_map]
    rfl
  have hfind : groupOf en.id (sectionsOf epoch i).groups =
      (i.composer.groups.find? fun g => g.id = en.id).map bared := by
    rw [groupOf, sectionsOf, List.find?_map]
    rfl
  refine Eq.trans ?_ hfits.symm
  rw [derivedTag, fittingTag]
  simp only [any_id_iff, hids, hqueue, hgroups, hspans, hfind]
  refine if_congr Iff.rfl rfl (if_congr Iff.rfl rfl (if_congr Iff.rfl ?_ (if_congr Iff.rfl rfl ?_)))
  · cases i.composer.groups.find? fun g => g.id = en.id <;> rfl
  · cases en.tag <;> rfl

theorem loadStack_image (h : Loadable i) (x : Lane) (shift : Frame) (epoch : Byte) :
    loadStack ((laneOf x i).queue.map (moved shift)) (i.schedule.map (moved shift)) (sectionsOf epoch i)
      ((laneOf x i).stack.reverse.map fun en => { tag := some en.tag, id := en.id }) =
      (laneOf x i).stack := by
  rw [loadStack, List.map_map, List.map_reverse, List.reverse_reverse]
  refine (List.map_congr_left fun en hen => ?_).trans (List.map_id _)
  simp only [Function.comp_apply, derivedTag_image h hen shift epoch, id_eq]

/-- Spans laid out from a column on are those whose start columns stand so. -/
theorem layoutSpans_of_started {start : Nat} {sps : List Span}
    (h : ∀ left sp right, sps = left ++ sp :: right → sp.start = start + (left.map (·.columns)).sum) :
    layoutSpans start (sps.map fun sp => { sp with start := 0 }) = sps := by
  induction sps generalizing start with
  | nil => rfl
  | cons sp rest ih =>
    have hsp := h [] sp rest rfl
    rw [List.map_cons, layoutSpans, ih]
    · simp only [List.map_nil, List.sum_nil, Nat.add_zero] at hsp
      rw [← hsp]
    · intro left q right heq
      rw [h (sp :: left) q right (by rw [heq]; rfl), List.map_cons, List.sum_cons, Nat.add_assoc]

/-! ### The load -/

theorem toNat_setting {n v : Nat} (hn : n < 16) (hv : (settings i).getD n 0 = v) (hlt : v < 65536) :
    ((image i).getD (8 + n) 0).toNat = v := by
  rw [← numberAt, numberAt_settings hn, hv, Nat.mod_eq_of_lt hlt]

theorem loadRetiming_image (h : Loadable i) (shift : Frame) (r : Retiming) :
    loadRetiming (image i) shift r = { i.retiming with
      speechTail := i.retiming.speechTail.map (· + shift), maxLateness := r.maxLateness } := by
  obtain ⟨hdt, hde, hat, hae, hbt, hbe, hlead, hlow, hhigh, -, -⟩ := h.settings
  have hslew : slewCode i.retiming.slewMode ≤ 1 := by cases i.retiming.slewMode <;> decide
  have h8 : ((image i).getD 8 0).toNat = i.retiming.delayTarget :=
    toNat_setting (n := 0) (by decide) rfl (by omega)
  have h9 : ((image i).getD 9 0).toNat = i.retiming.delayEff :=
    toNat_setting (n := 1) (by decide) rfl (by omega)
  have h14 : ((image i).getD 14 0).toNat = modeNumber i :=
    toNat_setting (n := 6) (by decide) (by rw [settings_eq]; rfl) (by rw [modeNumber]; omega)
  have hmode : (if field ((image i).getD 14 0) 13 3 = 1 then SlewMode.brisk else .normal) =
      i.retiming.slewMode := by
    have hcode : field ((image i).getD 14 0) 13 3 = slewCode i.retiming.slewMode := by
      rw [field_eq, h14, modeNumber]
      omega
    rw [hcode]
    cases i.retiming.slewMode <;> rfl
  have hleadField : min (field ((image i).getD 14 0) 9 4) 12 = i.retiming.lead := by
    rw [field_eq, h14, modeNumber]
    omega
  have hhorizon : max 25 (min (field ((image i).getD 14 0) 0 9) 500) = i.retiming.horizon := by
    rw [field_eq, h14, modeNumber]
    omega
  have htail : loadFrame (((image i).getD 16 0).getLsbD 2) ((image i).getD 22 0) ((image i).getD 23 0)
      shift = i.retiming.speechTail.map (· + shift) := by
    have := i.retiming.speechTail.isSome.toNat_le
    have := i.laneA.speechLast.isSome.toNat_le
    have := i.laneB.speechLast.isSome.toNat_le
    exact loadFrame_image (n := 14) (by decide) (by rw [settings_eq]; rfl) (by rw [settings_eq]; rfl)
      (by decide) (by rw [flagsNumber]; omega) shift
  rw [loadRetiming, h8, h9, hmode, hleadField, hhorizon, htail, min_eq_left hdt, min_eq_left hde]

/-- The image of a state in order loads that state, every E value moved by the distance between the two
moments. -/
theorem loadSections_image (h : Loadable i) (s : State) :
    loadSections (image i) (sectionsOf s.timebase.epoch i) s = loaded i s := by
  obtain ⟨hdt, hde, hat, hae, hbt, hbe, hlead, hlow, hhigh, -, -⟩ := h.settings
  obtain ⟨-, -, -, -, -, -, -, -, hstarts, -⟩ := h.order
  have := i.retiming.speechTail.isSome.toNat_le
  have := i.laneA.speechLast.isSome.toNat_le
  have := i.laneB.speechLast.isSome.toNat_le
  generalize hshift : s.timebase.e - i.timebase.e = shift
  have h10 : ((image i).getD 10 0).toNat = i.laneA.lagTarget :=
    toNat_setting (n := 2) (by decide) rfl (by omega)
  have h11 : ((image i).getD 11 0).toNat = i.laneA.lagEff :=
    toNat_setting (n := 3) (by decide) rfl (by omega)
  have h12 : ((image i).getD 12 0).toNat = i.laneB.lagTarget :=
    toNat_setting (n := 4) (by decide) rfl (by omega)
  have h13 : ((image i).getD 13 0).toNat = i.laneB.lagEff :=
    toNat_setting (n := 5) (by decide) rfl (by omega)
  have hlastA : loadFrame (((image i).getD 16 0).getLsbD 0) ((image i).getD 18 0) ((image i).getD 19 0)
      shift = i.laneA.speechLast.map (· + shift) :=
    loadFrame_image (n := 10) (by decide) (by rw [settings_eq]; rfl) (by rw [settings_eq]; rfl)
      (by decide) (by rw [flagsNumber]; omega) shift
  have hlastB : loadFrame (((image i).getD 16 0).getLsbD 1) ((image i).getD 20 0) ((image i).getD 21 0)
      shift = i.laneB.speechLast.map (· + shift) :=
    loadFrame_image (n := 12) (by decide) (by rw [settings_eq]; rfl) (by rw [settings_eq]; rfl)
      (by decide) (by rw [flagsNumber]; omega) shift
  have hspans : layoutSpans 0 (sectionsOf s.timebase.epoch i).spans = i.composer.spans :=
    layoutSpans_of_started fun left sp right heq => by rw [hstarts left sp right heq, Nat.zero_add]
  have hqueueA : (sectionsOf s.timebase.epoch i).queueA.map (rebaseToken shift) =
      i.laneA.queue.map (moved shift) := rfl
  have hqueueB : (sectionsOf s.timebase.epoch i).queueB.map (rebaseToken shift) =
      i.laneB.queue.map (moved shift) := rfl
  have hschedule : orderSchedule none ((sectionsOf s.timebase.epoch i).schedule.map (rebaseToken shift)) =
      i.schedule.map (moved shift) := orderSchedule_image h shift
  have hstackA : loadStack (i.laneA.queue.map (moved shift)) (i.schedule.map (moved shift))
      (sectionsOf s.timebase.epoch i) (sectionsOf s.timebase.epoch i).stackA = i.laneA.stack :=
    loadStack_image h .a shift s.timebase.epoch
  have hstackB : loadStack (i.laneB.queue.map (moved shift)) (i.schedule.map (moved shift))
      (sectionsOf s.timebase.epoch i) (sectionsOf s.timebase.epoch i).stackB = i.laneB.stack :=
    loadStack_image h .b shift s.timebase.epoch
  simp only [loadSections, frame_image, hshift, hqueueA, hqueueB, hschedule, hstackA, hstackB,
    loadRetiming_image h, loadTail_image h, imageLayout_image h, loadFloor_image h, hspans, loadLane, h10,
    h11, h12, h13, hlastA, hlastB, min_eq_left hat, min_eq_left hae, min_eq_left hbt, min_eq_left hbe]
  rw [loaded, hshift]
  rfl

/-- Settles O57: every check passes on the image, and its sections load the state they came from. -/
theorem restoreLoadsASnapshot : Obligations.RestoreLoadsASnapshot := by
  intro i s tag hsettings hfloor hpipeline horder hlow hfill hwords hfull
  have h : Loadable i := ⟨hsettings, hfloor, hpipeline, horder⟩
  refine exec_restoreCommit tag hlow ?_
  rw [commitRestore, if_neg (not_not_intro hfill), validImage_image h hwords hfull s.timebase.epoch]
  dsimp only
  rw [hwords, loadSections_image h s]

end Sys2Proof.Images
end

section
/-! SUPPORT. The schedule stays in speech order (R54, R59, R70): speech counts near enough to compare,
and what every move keeps of them. -/

namespace Sys2Proof.Moves

open Sys2Proof.Machine Sys2Proof.Expect Sys2Proof.Safety Sys2Proof.ProgrammeTime
  Sys2Proof.FloorAndHandoff Sys2Proof.Effects Sys2Proof.Directives Sys2Proof.Schedules
  Sys2Proof.FrameEvents Sys2Proof.Records Sys2Proof.Corrections Sys2Proof.Emissions
  Sys2Proof.Images

/-! ### Speech counts that compare -/

/-- A speech count not after `e`, and less than half the count's range before it. -/
def near (e x : Frame) : Prop := (e - x).toNat < 2147483648

theorem precedes_iff_of_near {e a b : Frame} (ha : near e a) (hb : near e b) :
    precedes a b = true ↔ (e - b).toNat < (e - a).toNat := by
  rw [near] at ha hb
  rw [precedes, Bool.and_eq_true, decide_eq_true_eq, decide_eq_true_eq]
  bv_omega

theorem not_precedes_iff_of_near {e a b : Frame} (ha : near e a) (hb : near e b) :
    precedes a b = false ↔ (e - a).toNat ≤ (e - b).toNat := by
  rw [← Bool.not_eq_true, precedes_iff_of_near ha hb, not_lt]

/-- A raised speech count is one of the two, and precedes no limit. -/
theorem raised_mem (limit : Option Frame) (x : Frame) : raised limit x = x ∨ raised limit x ∈ limit := by
  cases limit with
  | none => exact .inl rfl
  | some l =>
    simp only [raised]
    split
    · exact .inr rfl
    · exact .inl rfl

theorem near_raised {e x : Frame} {limit : Option Frame} (hx : near e x) (hlimit : ∀ l ∈ limit, near e l) :
    near e (raised limit x) := by
  rcases raised_mem limit x with heq | hmem
  · rw [heq]
    exact hx
  · exact hlimit _ hmem

theorem not_precedes_raised {e x l : Frame} (hl : near e l) :
    precedes (raised (some l) x) l = false := by
  simp only [raised]
  split
  · exact (not_precedes_iff_of_near hl hl).mpr (le_refl _)
  · next h => simpa using h

theorem not_precedes_trans {e a b c : Frame} (ha : near e a) (hb : near e b) (hc : near e c)
    (hab : precedes a b = false) (hbc : precedes b c = false) : precedes a c = false :=
  (not_precedes_iff_of_near ha hc).mpr (((not_precedes_iff_of_near ha hb).mp hab).trans
    ((not_precedes_iff_of_near hb hc).mp hbc))

/-! ### The speech counts of the pipeline -/

/-- The S_last of a lane. -/
def Line.last (l : Line) (x : Lane) : Option Frame :=
  match x with
  | .a => l.lastA
  | .b => l.lastB

theorem lineOf_last (x : Lane) (s : State) : (lineOf s).last x = (laneOf x s).speechLast := by
  cases x <;> rfl

/-- The schedule in speech order up to S_tail, with every speech count near enough to `e` to compare. -/
structure SpeechHolds (e : Frame) (l : Line) : Prop where
  queues : ∀ x, ∀ k ∈ l.queue x, near e k.speech
  timed : ∀ k ∈ l.schedule, near e k.speech
  tailNear : ∀ x ∈ l.tail, near e x
  lastNear : ∀ x, ∀ y ∈ l.last x, near e y
  order : (l.schedule.map (·.speech)).Pairwise fun x y => precedes y x = false
  tail : ∀ k ∈ l.schedule, ∃ tail, l.tail = some tail ∧ precedes tail k.speech = false

theorem near_speeches_iff (e : Frame) (s : State) : (∀ x ∈ speeches s, near e x) ↔
    (∀ x, ∀ k ∈ (lineOf s).queue x, near e k.speech) ∧ (∀ k ∈ (lineOf s).schedule, near e k.speech) ∧
      (∀ x ∈ (lineOf s).tail, near e x) ∧ ∀ x, ∀ y ∈ (lineOf s).last x, near e y := by
  simp only [speeches, List.map_append, List.forall_mem_append, List.forall_mem_map,
    Option.mem_toList, forall_lane, Line.queue, Line.last, lineOf]
  tauto

/-- Tokens leave; S_tail and each S_last stay or are unset, S_tail with an empty schedule only. -/
theorem SpeechHolds.leave {e : Frame} {s t : State} (h : SpeechHolds e (lineOf s))
    (hqueue : ∀ x, (laneOf x t).queue ⊆ (laneOf x s).queue)
    (hschedule : t.schedule.Sublist s.schedule)
    (hlast : ∀ x, (laneOf x t).speechLast = (laneOf x s).speechLast ∨ (laneOf x t).speechLast = none)
    (htail : t.retiming.speechTail = s.retiming.speechTail) : SpeechHolds e (lineOf t) where
  queues x k hk := by
    rw [lineOf_queue] at hk
    exact h.queues x k (by rw [lineOf_queue]; exact hqueue x hk)
  timed k hk := h.timed k (hschedule.subset hk)
  tailNear x hx := h.tailNear x (show x ∈ s.retiming.speechTail from htail ▸ hx)
  lastNear x y hy := by
    rw [lineOf_last] at hy
    rcases hlast x with heq | hnone
    · exact h.lastNear x y (by rw [lineOf_last]; exact heq ▸ hy)
    · rw [hnone] at hy
      cases hy
  order := h.order.sublist (hschedule.map _)
  tail k hk := by
    obtain ⟨tail, hsome, hprecedes⟩ := h.tail k (hschedule.subset hk)
    exact ⟨tail, htail.trans hsome, hprecedes⟩

/-- Nothing waits and nothing is timed. -/
theorem speechHolds_of_empty (e : Frame) {t : State} (hqueue : ∀ x, (laneOf x t).queue = [])
    (hschedule : t.schedule = []) (hlast : ∀ x, (laneOf x t).speechLast = none)
    (htail : t.retiming.speechTail = none) : SpeechHolds e (lineOf t) where
  queues x k hk := by
    rw [lineOf_queue, hqueue] at hk
    cases hk
  timed k hk := by
    rw [show (lineOf t).schedule = [] from hschedule] at hk
    cases hk
  tailNear x hx := by
    rw [show (lineOf t).tail = none from htail] at hx
    cases hx
  lastNear x y hy := by
    rw [lineOf_last, hlast] at hy
    cases hy
  order := by
    rw [show (lineOf t).schedule = [] from hschedule]
    exact List.Pairwise.nil
  tail k hk := by
    rw [show (lineOf t).schedule = [] from hschedule] at hk
    cases hk

variable {e : Frame} {s : State}

theorem near_stamp {x : Lane} (hlag : (laneOf x s).lagEff ≤ 300) : near s.timebase.e (stamp x s) := by
  rw [near, stamp]
  bv_omega

theorem queued_last (k : Token) (y : Lane) (s : State) :
    (laneOf y (queued k s)).speechLast =
      if y = k.id.lane then some k.speech else (laneOf y s).speechLast := by
  rw [queued, laneOf_setLane]
  split
  · rfl
  · cases y <;> rfl

theorem speechHolds_queued (h : SpeechHolds e (lineOf s)) {k : Token} (hk : near e k.speech) :
    SpeechHolds e (lineOf (queued k s)) := by
  obtain ⟨hsched, -, hretiming⟩ := queued_rest k s
  have hscheduleEq : (lineOf (queued k s)).schedule = (lineOf s).schedule := hsched
  have htailEq : (lineOf (queued k s)).tail = (lineOf s).tail := congrArg Retiming.speechTail hretiming
  refine ⟨fun y q hq => ?_, hscheduleEq ▸ h.timed, htailEq ▸ h.tailNear, fun y z hz => ?_,
    hscheduleEq ▸ h.order, ?_⟩
  · rw [lineOf_queue, (laneOf_queued k y s).1] at hq
    have hold := h.queues y
    rw [lineOf_queue] at hold
    split at hq
    · rcases List.mem_append.mp hq with hq | hq
      · exact hold q hq
      · exact List.mem_singleton.mp hq ▸ hk
    · exact hold q hq
  · rw [lineOf_last, queued_last] at hz
    split at hz
    · cases hz
      exact hk
    · exact h.lastNear y z (by rw [lineOf_last]; exact hz)
  · rw [hscheduleEq, htailEq]
    exact h.tail

theorem entered_last (x y : Lane) (k : Token) (rest : List Token) (s : State) :
    (laneOf y (entered x k rest s)).speechLast = (laneOf y s).speechLast := by
  cases x <;> cases y <;> rfl

theorem speechHolds_entered (h : SpeechHolds e (lineOf s)) {x : Lane} {k : Token} {rest : List Token}
    (hqueue : (laneOf x s).queue = k :: rest) : SpeechHolds e (lineOf (entered x k rest s)) := by
  obtain ⟨hsched, -, htailNew⟩ := entered_rest x k rest s
  have hk : near e k.speech := h.queues x k (by rw [lineOf_queue, hqueue]; simp)
  have htailOld : ∀ y ∈ s.retiming.speechTail, near e y := h.tailNear
  have hnew : near e (raised s.retiming.speechTail k.speech) := near_raised hk htailOld
  have hscheduleEq : (lineOf (entered x k rest s)).schedule =
      s.schedule ++ [{ k with speech := raised s.retiming.speechTail k.speech }] := hsched
  have htailEq : (lineOf (entered x k rest s)).tail = some (raised s.retiming.speechTail k.speech) :=
    htailNew
  have hbehind : ∀ q ∈ s.schedule, precedes (raised s.retiming.speechTail k.speech) q.speech = false := by
    intro q hq
    obtain ⟨tail, hsome, hprecedes⟩ := h.tail q hq
    have hsome' : s.retiming.speechTail = some tail := hsome
    rw [hsome'] at hnew ⊢
    have htail : near e tail := htailOld tail hsome'
    exact not_precedes_trans hnew htail (h.timed q hq) (not_precedes_raised htail) hprecedes
  have hself : precedes (raised s.retiming.speechTail k.speech)
      (raised s.retiming.speechTail k.speech) = false :=
    (not_precedes_iff_of_near hnew hnew).mpr (le_refl _)
  refine ⟨fun y q hq => ?_, ?_, ?_, fun y z hz => ?_, ?_, ?_⟩
  · rw [lineOf_queue, laneOf_entered_queue] at hq
    have hold := h.queues y
    rw [lineOf_queue] at hold
    split at hq
    · next heq =>
      subst heq
      exact hold q (hqueue ▸ List.mem_cons_of_mem _ hq)
    · exact hold q hq
  · rw [hscheduleEq]
    intro q hq
    rcases List.mem_append.mp hq with hq | hq
    · exact h.timed q hq
    · exact List.mem_singleton.mp hq ▸ hnew
  · rw [htailEq]
    rintro _ ⟨⟩
    exact hnew
  · rw [lineOf_last, entered_last] at hz
    exact h.lastNear y z (by rw [lineOf_last]; exact hz)
  · rw [hscheduleEq, List.map_append, List.pairwise_append]
    refine ⟨h.order, List.pairwise_singleton _ _, ?_⟩
    intro a ha b hb
    obtain ⟨q, hq, rfl⟩ := List.mem_map.mp ha
    rw [List.mem_singleton.mp hb]
    exact hbehind q hq
  · rw [hscheduleEq, htailEq]
    intro q hq
    rcases List.mem_append.mp hq with hq | hq
    · exact ⟨_, rfl, hbehind q hq⟩
    · exact ⟨_, rfl, List.mem_singleton.mp hq ▸ hself⟩

/-! ### Every move -/

/-- A restore commit of the command that began at `s₀` accepts the image collected, as `S`. -/
structure Loads (s₀ s : State) (S : ImageSections) : Prop where
  high : s₀.resetLow = false
  time : s.timebase = s₀.timebase
  image : s.image = s₀.image
  fill : s.image.state = .filling
  valid : validImage s.timebase.epoch s.image = some S

theorem near_token {x : Lane} (hsettings : SettingsHold s) (h : SpeechHolds s.timebase.e (lineOf s))
    (kind : TokenKind) (sentEnd attach : Bool) (text : List Byte) :
    near s.timebase.e (token x kind sentEnd attach text s).speech := by
  obtain ⟨-, -, -, hlagA, -, hlagB, -⟩ := hsettings
  refine near_raised (near_stamp ?_) fun y hy => h.lastNear x y (by rw [lineOf_last]; exact hy)
  cases x with
  | a => exact hlagA
  | b => exact hlagB

theorem speechHolds_shed (h : SpeechHolds e (lineOf s)) (x : Lane) :
    SpeechHolds e (lineOf (shedHead x s)) := by
  obtain ⟨hschedule, -, hretiming⟩ := shed_rest x s
  refine h.leave (fun y => ?_) (by rw [hschedule]) (fun y => .inl ?_) (by rw [hretiming])
  · rw [shed_queue]
    split
    · next heq => exact heq ▸ (List.tail_sublist _).subset
    · exact List.Subset.refl _
  · obtain ⟨k, heq⟩ := shedHead_eq_noticed x s
    rw [heq]
    cases x <;> cases y <;> rfl

theorem speechHolds_passed (h : SpeechHolds e (lineOf s)) (x : Lane) :
    SpeechHolds e (lineOf (passed x s)) := by
  refine h.leave (fun y => ?_) (by cases x <;> exact .refl _) (fun y => .inl ?_) (by cases x <;> rfl)
  · rw [passed_queue]
    split
    · exact List.nil_subset _
    · exact List.filter_sublist.subset
  · cases x <;> cases y <;> rfl

theorem speechHolds_flushed (h : SpeechHolds e (lineOf s)) (x : Lane) :
    SpeechHolds e (lineOf (flushed x s)) := by
  have hschedule : (flushed x s).schedule = s.schedule.filter fun k => k.id.lane ≠ x := by
    cases x <;> rfl
  refine h.leave (fun y => ?_) (hschedule ▸ List.filter_sublist) (fun y => ?_) (by cases x <;> rfl)
  · rw [flushed_queue]
    split
    · exact List.nil_subset _
    · exact List.Subset.refl _
  · cases x <;> cases y
    · exact .inr rfl
    · exact .inl rfl
    · exact .inl rfl
    · exact .inr rfl

/-- A pop leaves every speech count but that of the token it recalls. -/
theorem speechHolds_setStack (h : SpeechHolds e (lineOf s)) (x : Lane) (rest : List StackEntry) :
    SpeechHolds e (lineOf (setStack x rest s)) :=
  h.leave (fun y => by cases x <;> cases y <;> exact List.Subset.refl _)
    (by cases x <;> exact .refl _) (fun y => .inl (by cases x <;> cases y <;> rfl))
    (by cases x <;> rfl)

theorem speechHolds_recalled (h : SpeechHolds e (lineOf s)) (x : Lane) (id : TokenId)
    (rest : List StackEntry) : SpeechHolds e
      (lineOf (setQueue x (withoutToken id (laneOf x s).queue) (setStack x rest s))) := by
  refine (speechHolds_setStack h x rest).leave (fun y => ?_) (by cases x <;> exact .refl _)
    (fun y => .inl (by cases x <;> cases y <;> rfl)) (by cases x <;> rfl)
  rw [laneOf_setQueue]
  split
  · next heq =>
    have hqueue : (laneOf x (setStack x rest s)).queue = (laneOf x s).queue := by cases x <;> rfl
    rw [heq, hqueue]
    exact List.filter_sublist.subset
  · exact List.Subset.refl _

theorem speechHolds_unscheduled (h : SpeechHolds e (lineOf s)) (x : Lane) (id : TokenId)
    (rest : List StackEntry) : SpeechHolds e
      (lineOf { setStack x rest s with schedule := withoutToken id s.schedule }) :=
  h.leave (fun y => by cases x <;> cases y <;> exact List.Subset.refl _) List.filter_sublist
    (fun y => .inl (by cases x <;> cases y <;> rfl)) (by cases x <;> rfl)

/-- What leaves the speech counts alone. -/
theorem SpeechHolds.of_same {t : State} (h : SpeechHolds e (lineOf s))
    (hlane : ∀ x, (laneOf x t).queue = (laneOf x s).queue ∧
      (laneOf x t).speechLast = (laneOf x s).speechLast) (hschedule : t.schedule = s.schedule)
    (htail : t.retiming.speechTail = s.retiming.speechTail) : SpeechHolds e (lineOf t) :=
  h.leave (fun x => by rw [(hlane x).1]; exact List.Subset.refl _) (hschedule ▸ .refl _)
    (fun x => .inl (hlane x).2) htail

theorem speechHolds_released (h : SpeechHolds e (lineOf s)) {k : Token} {rest : List Token}
    (hhead : s.schedule = k :: rest) : SpeechHolds e (lineOf (released k rest s)) := by
  refine h.leave (fun y => by rw [laneOf_released_queue]; exact List.Subset.refl _) ?_ (fun y => .inl ?_) ?_
  · rw [released_schedule, hhead]
    exact List.sublist_cons_self _ _
  all_goals
    rw [released]
    generalize composition k s.composer.cursor s.composer.layout.width = g
    obtain ⟨roll, cs⟩ := g
  · cases roll <;> cases y <;> rfl
  · cases roll <;> rfl

/-- Every move keeps the schedule in speech order, in a command that began at the moment `e`. -/
theorem Move.speech {s₀ t : State} (h : Move s₀ s t) (hline : LineHolds (lineOf s))
    (hsettings : SettingsHold s) (hs : SpeechHolds s₀.timebase.e (lineOf s))
    (hload : ∀ S, Loads s₀ s S →
      SpeechHolds s₀.timebase.e (lineOf (loadSections s.image.words S s))) :
    SpeechHolds s₀.timebase.e (lineOf t) := by
  cases h with
  | aside h => exact h.line ▸ hs
  | queued x kind sentEnd attach text _ _ hstart =>
    rw [← hstart] at hs ⊢
    exact speechHolds_queued hs (near_token hsettings hs kind sentEnd attach text)
  | shed x => exact speechHolds_shed hs x
  | entered x k rest hqueue => exact speechHolds_entered hs hqueue
  | passed x => exact speechHolds_passed hs x
  | discarded k rest hhead =>
    exact hs.leave (fun y => by rw [laneOf_discarded_queue]; exact List.Subset.refl _)
      (hhead ▸ List.sublist_cons_self _ _) (fun y => .inl (by cases y <;> rfl)) rfl
  | released k rest hhead => exact speechHolds_released hs hhead
  | flushed x => exact speechHolds_flushed hs x
  | laid l => exact hs.of_same (fun y => by cases y <;> exact ⟨rfl, rfl⟩) rfl rfl
  | cleared =>
    have hids := hline.composer.groupIds
    exact hs.of_same (fun y => by rw [cleared_lane hids]; exact ⟨rfl, rfl⟩) (by rw [clearWindow_eq hids])
      (by rw [clearWindow_eq hids])
  | forgotten x en rest => exact speechHolds_setStack hs x rest
  | recalled x en rest => exact speechHolds_recalled hs x en.id rest
  | unscheduled x en rest => exact speechHolds_unscheduled hs x en.id rest
  | undone x en rest left sp =>
    refine (speechHolds_setStack hs x rest).of_same (fun y => by rw [undone_lane]; exact ⟨rfl, rfl⟩)
      (undone_schedule sp _) ?_
    unfold undoLast
    dsimp only
    split <;> rfl
  | taken =>
    exact hs.of_same (fun y => by rw [takeCells_eq]; cases y <;> exact ⟨rfl, rfl⟩)
      (taken_schedule 1 s) (by rw [takeCells_eq])
  | restarted => exact speechHolds_of_empty _ (fun y => by cases y <;> rfl) rfl (fun y => by cases y <;> rfl) rfl
  | reset => exact speechHolds_of_empty _ (fun y => by cases y <;> rfl) rfl (fun y => by cases y <;> rfl) rfl
  | loaded S hhigh htime himage hfill hvalid => exact hload S ⟨hhigh, htime, himage, hfill, hvalid⟩

end Sys2Proof.Moves
end

section
/-! SUPPORT. Every stack tag fits where its token stands (R98 to R102, R114): the places of a token, and
what each move makes of them. -/

namespace Sys2Proof.Moves

open Sys2Proof.Machine Sys2Proof.Expect Sys2Proof.Safety Sys2Proof.ProgrammeTime
  Sys2Proof.FloorAndHandoff Sys2Proof.Effects Sys2Proof.Directives Sys2Proof.Schedules
  Sys2Proof.FrameEvents Sys2Proof.Records Sys2Proof.Corrections Sys2Proof.Emissions
  Sys2Proof.Images

/-! ### Places -/

/-- Where a token stands: in a lane queue, in the schedule, on the row, in the group table, where the
record says whether a cell of it is taken. -/
structure Place where
  waits : Bool
  timed : Bool
  spanned : Bool
  group : Option Bool

/-- The tag that fits a place; with none left, CLOSED stays and any other becomes DROPPED (R114). -/
def tagAt (p : Place) (old : Tag) : Tag :=
  if p.waits then .waiting
  else if p.timed then .pending
  else if p.spanned then
    match p.group with
    | none => .shown
    | some false => .composed
    | some true => .sending
  else if p.group.isSome then .closed
  else if old = .closed then .closed else .dropped

/-- Whether a cell of the token's group is taken, if it has a record. -/
def groupTaken (c : Composer) (id : TokenId) : Option Bool :=
  (groupOf id c.groups).map fun g => decide (g.taken ≠ 0)

/-- The place of a token. -/
def placeOf (s : State) (id : TokenId) : Place :=
  { waits := decide (id ∈ (laneOf id.lane s).queue.map (·.id))
    timed := decide (id ∈ s.schedule.map (·.id))
    spanned := decide (id ∈ spanNamesOf s.composer)
    group := groupTaken s.composer id }

/-- Every entry of both stacks has the tag that fits. -/
def TagsFit (s : State) : Prop := ∀ x, ∀ en ∈ (laneOf x s).stack, en.tag = tagAt (placeOf s en.id) en.tag

theorem groupTaken_isSome (c : Composer) (id : TokenId) :
    (groupTaken c id).isSome = true ↔ id ∈ groupNamesOf c := by
  simp [groupTaken, groupOf, List.find?_isSome, groupNamesOf]

theorem groupTaken_eq_none {c : Composer} {id : TokenId} (h : id ∉ groupNamesOf c) :
    groupTaken c id = none := by
  rw [← groupTaken_isSome] at h
  simpa using h

theorem mem_queues_iff {s : State} (h : LineHolds (lineOf s)) (id : TokenId) :
    id ∈ (s.laneA.queue ++ s.laneB.queue).map (·.id) ↔ id ∈ (laneOf id.lane s).queue.map (·.id) := by
  have hlane : ∀ y, id ∈ (laneOf y s).queue.map (·.id) → id.lane = y := by
    intro y hy
    obtain ⟨k, hk, rfl⟩ := List.mem_map.mp hy
    exact ((h.queue_state y).2.1 k hk).2
  rw [List.map_append, List.mem_append]
  constructor
  · rintro (hmem | hmem)
    · rw [hlane .a hmem]
      exact hmem
    · rw [hlane .b hmem]
      exact hmem
  · intro hmem
    cases hx : id.lane <;> rw [hx] at hmem
    · exact .inl hmem
    · exact .inr hmem

theorem fittingTag_eq {s : State} (h : LineHolds (lineOf s)) (en : StackEntry) :
    fittingTag s en = tagAt (placeOf s en.id) en.tag := by
  have hgroup : (groupTaken s.composer en.id).isSome = true ↔ en.id ∈ s.composer.groups.map (·.id) :=
    groupTaken_isSome _ _
  simp only [fittingTag, tagAt, placeOf, decide_eq_true_eq, mem_queues_iff h, hgroup]
  refine if_congr Iff.rfl rfl (if_congr Iff.rfl rfl (if_congr Iff.rfl ?_ rfl))
  rw [groupTaken, groupOf]
  cases s.composer.groups.find? fun g => g.id = en.id with
  | none => rfl
  | some g => by_cases hzero : g.taken = 0 <;> simp [hzero]

theorem tagsFit_iff {s : State} (h : LineHolds (lineOf s)) :
    TagsFit s ↔ ∀ en ∈ s.laneA.stack ++ s.laneB.stack, en.tag = fittingTag s en := by
  simp only [List.forall_mem_append, fittingTag_eq h]
  exact forall_lane

/-- A token waits, is timed, or stands on the row and in the table, no two of these (R30). -/
structure Single (p : Place) : Prop where
  waits : p.waits = true → p.timed = false ∧ p.spanned = false ∧ p.group = none
  timed : p.timed = true → p.spanned = false ∧ p.group = none

theorem single_placeOf {s : State} (h : LineHolds (lineOf s)) (id : TokenId) : Single (placeOf s id) := by
  refine ⟨fun hw => ?_, fun ht => ?_⟩
  · obtain ⟨k, hk, heq⟩ := List.mem_map.mp (of_decide_eq_true hw)
    obtain ⟨hs, hg, hsp⟩ := (h.queue_state id.lane).2.2.2 k hk
    rw [heq] at hs hg hsp
    exact ⟨decide_eq_false hs, decide_eq_false hsp, groupTaken_eq_none hg⟩
  · obtain ⟨k, hk, heq⟩ := List.mem_map.mp (of_decide_eq_true ht)
    obtain ⟨hg, hsp⟩ := h.scheduleFresh k hk
    rw [heq] at hg hsp
    exact ⟨decide_eq_false hsp, groupTaken_eq_none hg⟩

variable {s t : State}

/-- Entries whose tags follow their tokens fit. -/
theorem TagsFit.follow (h : TagsFit s) (f : TokenId → Tag → Tag)
    (hstack : ∀ x, ∀ en' ∈ (laneOf x t).stack, ∃ en ∈ (laneOf x s).stack,
      en'.id = en.id ∧ en'.tag = f en.id en.tag)
    (hfits : ∀ x, ∀ en ∈ (laneOf x s).stack, en.tag = tagAt (placeOf s en.id) en.tag →
      f en.id en.tag = tagAt (placeOf t en.id) (f en.id en.tag)) : TagsFit t := by
  intro x en' hen'
  obtain ⟨en, hen, hid, htag⟩ := hstack x en' hen'
  rw [htag, hid]
  exact hfits x en hen (h x en hen)

theorem mem_retagged {x : Lane} {ids : List TokenId} {f : Tag → Tag} {st : List StackEntry}
    (hlane : ∀ en ∈ st, en.id.lane = x) {en' : StackEntry} (h : en' ∈ retagged x ids f st) :
    ∃ en ∈ st, en'.id = en.id ∧ en'.tag = if en.id ∈ ids then f en.tag else en.tag := by
  obtain ⟨en, hen, rfl⟩ := List.mem_map.mp h
  refine ⟨en, hen, ?_⟩
  by_cases hid : en.id ∈ ids
  · simp [hid, hlane en hen]
  · simp [hid]

/-- Tags that follow a notice. -/
theorem TagsFit.notified (h : TagsFit s) (hline : LineHolds (lineOf s)) (ids : List TokenId)
    (f : Tag → Tag)
    (hstack : ∀ x, (laneOf x t).stack = retagged x ids f (laneOf x s).stack)
    (hin : ∀ id ∈ ids, ∀ old, old = tagAt (placeOf s id) old → f old = tagAt (placeOf t id) (f old))
    (hout : ∀ id, id ∉ ids → placeOf t id = placeOf s id) : TagsFit t := by
  refine h.follow (fun id tag => if id ∈ ids then f tag else tag) (fun x en' hen' => ?_)
    fun x en hen hfits => ?_
  · rw [hstack] at hen'
    exact mem_retagged (hline.stack_state x).2.2 hen'
  · split
    · next hid => exact hin _ hid _ hfits
    · next hid => rw [hout _ hid]; exact hfits

/-! ### Tokens that are lost -/

/-- The place of a token that is nowhere. -/
def nowhere : Place := ⟨false, false, false, none⟩

theorem tagAt_nowhere_dropTag {p : Place} (h : Single p) (hlost : p.waits = true ∨ p.timed = true)
    {old : Tag} (hold : old = tagAt p old) : dropTag old = tagAt nowhere (dropTag old) := by
  obtain ⟨w, ti, sp, g⟩ := p
  cases w <;> cases ti <;> simp_all [tagAt, dropTag, nowhere]

/-- Tokens lost from queues and schedule, with a discarded notice each, and nothing else moved. -/
theorem TagsFit.lose (h : TagsFit s) (hline : LineHolds (lineOf s)) (lost : List TokenId)
    (hlost : ∀ id ∈ lost, id ∈ (laneOf id.lane s).queue.map (·.id) ∨ id ∈ s.schedule.map (·.id))
    (hqueue : ∀ y id, id ∈ (laneOf y t).queue.map (·.id) ↔
      id ∈ (laneOf y s).queue.map (·.id) ∧ id ∉ lost)
    (hschedule : ∀ id, id ∈ t.schedule.map (·.id) ↔ id ∈ s.schedule.map (·.id) ∧ id ∉ lost)
    (hcomposer : t.composer = s.composer)
    (hstack : ∀ x, (laneOf x t).stack = retagged x lost dropTag (laneOf x s).stack) : TagsFit t := by
  refine h.notified hline lost dropTag hstack (fun id hid old hold => ?_) fun id hid => ?_
  · have hsingle := single_placeOf hline id
    have hstood : (placeOf s id).waits = true ∨ (placeOf s id).timed = true := by
      simpa only [placeOf, decide_eq_true_eq] using hlost id hid
    have hrow : (placeOf s id).spanned = false ∧ (placeOf s id).group = none := by
      rcases hstood with hw | ht
      · exact (hsingle.waits hw).2
      · exact hsingle.timed ht
    have hplace : placeOf t id = nowhere := by
      simp only [placeOf] at hrow
      simp only [placeOf, nowhere, hqueue, hschedule, hid, not_true_eq_false, and_false, decide_false,
        hcomposer, hrow]
    rw [hplace]
    exact tagAt_nowhere_dropTag hsingle hstood hold
  · simp only [placeOf, hqueue, hschedule, hid, not_false_eq_true, and_true, hcomposer]

/-- The identities that a filter keeps are those it does not drop. -/
theorem mem_ids_filter {ts : List Token} (h : (ts.map (·.id)).Nodup) (p : Token → Bool) (id : TokenId) :
    id ∈ (ts.filter p).map (·.id) ↔ id ∈ ts.map (·.id) ∧ id ∉ (ts.filter fun k => !p k).map (·.id) := by
  simp only [List.mem_map, List.mem_filter, Bool.not_eq_true', not_exists, not_and]
  constructor
  · rintro ⟨k, ⟨hk, hp⟩, rfl⟩
    refine ⟨⟨k, hk, rfl⟩, fun q hq heq => ?_⟩
    obtain rfl := List.inj_on_of_nodup_map h hq.1 hk heq
    rw [hp] at hq
    cases hq.2
  · rintro ⟨⟨k, hk, rfl⟩, hnot⟩
    refine ⟨k, ⟨hk, ?_⟩, rfl⟩
    cases hp : p k with
    | true => rfl
    | false => exact absurd rfl (hnot k ⟨hk, hp⟩)

/-- An identity of another lane does not stand in a lane's queue. -/
theorem lane_of_mem_queue (h : LineHolds (lineOf s)) {x : Lane} {id : TokenId}
    (hid : id ∈ (laneOf x s).queue.map (·.id)) : id.lane = x := by
  obtain ⟨k, hk, rfl⟩ := List.mem_map.mp hid
  exact ((h.queue_state x).2.1 k hk).2

theorem not_timed_of_mem_queue (h : LineHolds (lineOf s)) {x : Lane} {id : TokenId}
    (hid : id ∈ (laneOf x s).queue.map (·.id)) : id ∉ s.schedule.map (·.id) := by
  obtain ⟨k, hk, rfl⟩ := List.mem_map.mp hid
  exact ((h.queue_state x).2.2.2 k hk).1

theorem tagsFit_shed (h : TagsFit s) (hline : LineHolds (lineOf s)) (x : Lane) :
    TagsFit (shedHead x s) := by
  obtain ⟨hschedule, hcomposer, -⟩ := shed_rest x s
  have hids := (hline.queue_state x).2.2.1
  have hhead : ∀ id ∈ headOf x s, id ∈ (laneOf x s).queue.map (·.id) := fun id hid =>
    ((List.take_sublist 1 _).map _).subset hid
  refine h.lose hline (headOf x s) (fun id hid => .inl ?_) (fun y id => ?_) (fun id => ?_) hcomposer
    fun y => shed_stack x y s
  · rw [lane_of_mem_queue hline (hhead id hid)]
    exact hhead id hid
  · rw [shed_queue]
    split
    · next heq =>
      subst heq
      rw [headOf]
      cases hqueue : (laneOf y s).queue with
      | nil => simp
      | cons k rest =>
        rw [hqueue, List.map_cons, List.nodup_cons] at hids
        simp only [List.tail_cons, List.map_cons, List.mem_cons, List.take_succ_cons, List.take_zero,
          List.map_nil, List.not_mem_nil, or_false]
        constructor
        · intro hmem
          exact ⟨.inr hmem, fun heq => hids.1 (heq ▸ hmem)⟩
        · rintro ⟨heq | hmem, hne⟩
          · exact absurd heq hne
          · exact hmem
    · next hne =>
      refine (and_iff_left_of_imp fun hmem hid => hne ?_).symm
      rw [← lane_of_mem_queue hline hmem, lane_of_mem_queue hline (hhead id hid)]
  · rw [hschedule]
    exact (and_iff_left_of_imp fun hmem hid => not_timed_of_mem_queue hline (hhead id hid) hmem).symm

theorem tagsFit_passed (h : TagsFit s) (hline : LineHolds (lineOf s)) (x : Lane) :
    TagsFit (passed x s) := by
  have hschedule : (passed x s).schedule = s.schedule := by cases x <;> rfl
  have hlost : ∀ id, id ∈ (lostTo x s).map (·.id) ↔ id ∈ (laneOf x s).queue.map (·.id) ∨
      id ∈ ((laneOf (otherLane x) s).queue.filter fun k =>
        !keptBehind s.retiming.speechTail k).map (·.id) := fun id => by
    simp only [lostTo, List.map_append, List.mem_append]
  have hstood : ∀ id ∈ (lostTo x s).map (·.id), id ∈ (laneOf id.lane s).queue.map (·.id) := by
    intro id hid
    rcases (hlost id).mp hid with hmem | hmem
    · rw [lane_of_mem_queue hline hmem]
      exact hmem
    · have hmem' := (List.filter_sublist.map _).subset hmem
      rw [lane_of_mem_queue hline hmem']
      exact hmem'
  refine h.lose hline _ (fun id hid => .inl (hstood id hid)) (fun y id => ?_) (fun id => ?_)
    (by cases x <;> rfl) fun y => passed_stack x y s
  · rw [passed_queue, hlost]
    split
    · next heq =>
      subst heq
      simp only [List.map_nil, List.not_mem_nil, false_iff, not_and, not_not]
      exact .inl
    · next hne =>
      have hy : y = otherLane x := by cases x <;> cases y <;> first | rfl | exact absurd rfl hne
      rw [mem_ids_filter (hline.queue_state y).2.2.1, ← hy]
      refine and_congr_right fun hmem => not_congr (or_iff_right fun hx => hne ?_).symm
      rw [← lane_of_mem_queue hline hmem, lane_of_mem_queue hline hx]
  · rw [hschedule]
    exact (and_iff_left_of_imp fun hmem hid => not_timed_of_mem_queue hline (hstood id hid) hmem).symm

theorem tagsFit_flushed (h : TagsFit s) (hline : LineHolds (lineOf s)) (x : Lane) :
    TagsFit (flushed x s) := by
  have hschedule : (flushed x s).schedule = s.schedule.filter fun k => k.id.lane ≠ x := by
    cases x <;> rfl
  have hmine : ∀ id, id ∈ (s.schedule.filter fun k => k.id.lane = x).map (·.id) ↔
      id ∈ s.schedule.map (·.id) ∧ id.lane = x := fun id => by
    simp only [List.mem_map, List.mem_filter, decide_eq_true_eq]
    constructor
    · rintro ⟨k, ⟨hk, hlane⟩, rfl⟩
      exact ⟨⟨k, hk, rfl⟩, hlane⟩
    · rintro ⟨⟨k, hk, rfl⟩, hlane⟩
      exact ⟨k, ⟨hk, hlane⟩, rfl⟩
  have hothers : ∀ id, id ∈ (s.schedule.filter fun k => k.id.lane ≠ x).map (·.id) ↔
      id ∈ s.schedule.map (·.id) ∧ id.lane ≠ x := fun id => by
    simp only [List.mem_map, List.mem_filter, decide_eq_true_eq]
    constructor
    · rintro ⟨k, ⟨hk, hlane⟩, rfl⟩
      exact ⟨⟨k, hk, rfl⟩, hlane⟩
    · rintro ⟨⟨k, hk, rfl⟩, hlane⟩
      exact ⟨k, ⟨hk, hlane⟩, rfl⟩
  refine h.lose hline _ (fun id hid => ?_) (fun y id => ?_) (fun id => ?_) (by cases x <;> rfl)
    fun y => flushed_stack x y s
  · rcases List.mem_append.mp hid with hmem | hmem
    · rw [lane_of_mem_queue hline hmem]
      exact .inl hmem
    · exact .inr ((hmine id).mp hmem).1
  · rw [flushed_queue, List.mem_append, hmine]
    split
    · next heq =>
      subst heq
      simp only [List.map_nil, List.not_mem_nil, false_iff, not_and, not_not]
      exact .inl
    · next hne =>
      refine (and_iff_left_of_imp fun hmem => ?_).symm
      have hlane := lane_of_mem_queue hline hmem
      rintro (hx | ⟨-, hx⟩)
      · exact hne (hlane.symm.trans (lane_of_mem_queue hline hx))
      · exact hne (hlane.symm.trans hx)
  · rw [hschedule, hothers, List.mem_append, hmine]
    refine and_congr_right fun hmem => ⟨fun hlane => ?_, fun hnot hlane => hnot (.inr ⟨hmem, hlane⟩)⟩
    rintro (hx | ⟨-, hx⟩)
    · exact hlane (lane_of_mem_queue hline hx)
    · exact hlane hx

theorem tagsFit_discarded (h : TagsFit s) (hline : LineHolds (lineOf s)) {k : Token} {rest : List Token}
    (hhead : s.schedule = k :: rest) : TagsFit (discarded k rest s) := by
  have hids : ((k :: rest).map (·.id)).Nodup := hhead ▸ hline.scheduleIds
  rw [List.map_cons, List.nodup_cons] at hids
  have hk : k.id ∈ s.schedule.map (·.id) := by rw [hhead]; simp
  refine h.lose hline [k.id] (fun id hid => .inr (List.mem_singleton.mp hid ▸ hk)) (fun y id => ?_)
    (fun id => ?_) rfl fun y => discarded_stack y k rest s
  · rw [laneOf_discarded_queue]
    refine (and_iff_left_of_imp fun hmem hid => ?_).symm
    exact not_timed_of_mem_queue hline hmem (List.mem_singleton.mp hid ▸ hk)
  · rw [hhead, List.map_cons, List.mem_cons, List.mem_singleton,
      show (discarded k rest s).schedule = rest from rfl]
    constructor
    · exact fun hmem => ⟨.inr hmem, fun heq => hids.1 (heq ▸ hmem)⟩
    · rintro ⟨heq | hmem, hne⟩
      · exact absurd heq hne
      · exact hmem

end Sys2Proof.Moves
end

section
/-! SUPPORT. Every stack tag fits where its token stands, continued: admissions, releases, pops, takes;
and every move. -/

namespace Sys2Proof.Moves

open Sys2Proof.Machine Sys2Proof.Expect Sys2Proof.Safety Sys2Proof.ProgrammeTime
  Sys2Proof.FloorAndHandoff Sys2Proof.Effects Sys2Proof.Directives Sys2Proof.Schedules
  Sys2Proof.FrameEvents Sys2Proof.Records Sys2Proof.Corrections Sys2Proof.Emissions
  Sys2Proof.Images

variable {s t : State}

/-- A token of the row neither waits nor is timed. -/
theorem Single.of_spanned {p : Place} (h : Single p) (hsp : p.spanned = true) :
    p.waits = false ∧ p.timed = false := by
  obtain ⟨w, ti, sp, g⟩ := p
  refine ⟨Bool.eq_false_iff.mpr fun hw => ?_, Bool.eq_false_iff.mpr fun ht => ?_⟩
  · rw [(h.waits hw).2.1] at hsp
    cases hsp
  · rw [(h.timed ht).1] at hsp
    cases hsp

/-- A token with a group record neither waits nor is timed. -/
theorem Single.of_group {p : Place} (h : Single p) {b : Bool} (hg : p.group = some b) :
    p.waits = false ∧ p.timed = false := by
  refine ⟨Bool.eq_false_iff.mpr fun hw => ?_, Bool.eq_false_iff.mpr fun ht => ?_⟩
  · rw [(h.waits hw).2.2] at hg
    cases hg
  · rw [(h.timed ht).2] at hg
    cases hg

/-- The tag that fits a token of the row, or of the table, or of neither (R114). -/
def rowTag (spanned : Bool) (group : Option Bool) (old : Tag) : Tag :=
  match spanned, group with
  | true, none => .shown
  | true, some false => .composed
  | true, some true => .sending
  | false, some _ => .closed
  | false, none => if old = .closed then .closed else .dropped

theorem tagAt_row {p : Place} (h : p.waits = false ∧ p.timed = false) (old : Tag) :
    tagAt p old = rowTag p.spanned p.group old := by
  obtain ⟨w, ti, sp, g⟩ := p
  obtain ⟨rfl, rfl⟩ : w = false ∧ ti = false := h
  cases sp <;> rcases g with _ | _ | _ <;> rfl

/-! ### Rows closed and cleared (R101, R102) -/

theorem closed_same (s : State) : (closed s).schedule = s.schedule ∧
    (closed s).composer = emptied s.composer ∧ ∀ y, (laneOf y (closed s)).queue = (laneOf y s).queue :=
  ⟨rfl, rfl, fun y => by cases y <;> rfl⟩

theorem lineHolds_closed (h : LineHolds (lineOf s)) : LineHolds (lineOf (closed s)) :=
  h.recompose h.composer.emptied (List.Subset.refl _) (List.nil_subset _)
    (closed_same s).2.2 rfl fun y => by rw [closed_stack, retagged_ids]

theorem placeOf_closed (s : State) (id : TokenId) :
    placeOf (closed s) id = { placeOf s id with spanned := false } := by
  simp only [placeOf, (closed_same s).2.2]
  rfl

theorem tagsFit_closed (h : TagsFit s) (hline : LineHolds (lineOf s)) : TagsFit (closed s) := by
  refine h.notified hline _ closeTag (fun y => closed_stack y s) (fun id hid old hold => ?_) fun id hid => ?_
  · have hspanned : (placeOf s id).spanned = true := decide_eq_true hid
    have hrow := (single_placeOf hline id).of_spanned hspanned
    rw [placeOf_closed, tagAt_row (p := { placeOf s id with spanned := false }) hrow]
    rw [tagAt_row hrow, hspanned] at hold
    have hclosed : closeTag old = .closed := by
      rw [hold]
      rcases (placeOf s id).group with _ | _ | _ <;> rfl
    rw [hclosed]
    cases (placeOf s id).group <;> rfl
  · rw [placeOf_closed]
    have : (placeOf s id).spanned = false := decide_eq_false hid
    rw [← this]

/-- Tags that stay fit where they stand. -/
theorem TagsFit.of_same (h : TagsFit s) (hstack : ∀ x, (laneOf x t).stack ⊆ (laneOf x s).stack)
    (hplace : ∀ x, ∀ en ∈ (laneOf x t).stack, placeOf t en.id = placeOf s en.id) : TagsFit t :=
  fun x en hen => by
    rw [hplace x en hen]
    exact h x en (hstack x hen)

theorem tagsFit_laid (h : TagsFit s) (hline : LineHolds (lineOf s)) (l : Layout) : TagsFit (laid l s) :=
  (tagsFit_closed h hline).of_same (fun x => by cases x <;> exact List.Subset.refl _) fun x en _ => by
    have hqueue : ∀ y, (laneOf y (laid l s)).queue = (laneOf y (closed s)).queue := fun y => by
      cases y <;> rfl
    simp only [placeOf, hqueue]
    rfl

theorem clearedEntry_tag (en : StackEntry) (s : State) : (clearedEntry s en).tag =
    let removed := match groupTaken s.composer en.id with
      | none => en.tag
      | some taken => removeTag taken en.tag
    if en.id ∈ spanNamesOf s.composer then closeTag removed else removed := by
  rw [clearedEntry, groupTaken, groupOf]
  dsimp only
  cases s.composer.groups.find? fun g => g.id = en.id with
  | none => rfl
  | some g =>
    have htaken : decide (0 < g.taken) = decide (g.taken ≠ 0) := by simp [Nat.pos_iff_ne_zero]
    simp only [Option.map_some, htaken]
    rfl

theorem tagsFit_cleared (h : TagsFit s) (hline : LineHolds (lineOf s)) : TagsFit (clearWindow s) := by
  have hids := hline.composer.groupIds
  have hplace : ∀ id, placeOf (clearWindow s) id =
      { placeOf s id with spanned := false, group := none } := fun id => by
    simp only [placeOf, cleared_lane hids]
    rw [clearWindow_eq hids]
    rfl
  refine h.follow (fun id tag => (clearedEntry s { tag := tag, id := id }).tag) (fun x en' hen' => ?_)
    fun x en hen hfits => ?_
  · rw [cleared_lane hids] at hen'
    obtain ⟨en, hen, rfl⟩ := List.mem_map.mp hen'
    refine ⟨en, hen, ?_⟩
    rw [if_pos ((hline.stack_state x).2.2 en hen)]
    exact ⟨rfl, rfl⟩
  · have hspan : (en.id ∈ spanNamesOf s.composer) = ((placeOf s en.id).spanned = true) := by
      simp [placeOf]
    have hgroup : groupTaken s.composer en.id = (placeOf s en.id).group := rfl
    have hsingle := single_placeOf hline en.id
    rw [hplace, clearedEntry_tag]
    dsimp only
    rw [hgroup]
    simp only [hspan]
    generalize placeOf s en.id = p at *
    generalize en.tag = old at *
    obtain ⟨w, ti, sp, g⟩ := p
    cases w with
    | true =>
      obtain ⟨rfl, rfl, rfl⟩ := hsingle.waits rfl
      exact hfits
    | false =>
      cases ti with
      | true =>
        obtain ⟨rfl, rfl⟩ := hsingle.timed rfl
        exact hfits
      | false =>
        match sp, g with
        | false, none => exact hfits
        | false, some false | false, some true | true, none | true, some false | true, some true =>
          rw [hfits]
          rfl

/-! ### Pops (R103 to R107) -/

/-- The entries left by a pop name other tokens. -/
theorem mem_setStack (hline : LineHolds (lineOf s)) {x : Lane} {en : StackEntry} {rest : List StackEntry}
    (hstack : (laneOf x s).stack = en :: rest) {y : Lane} {en' : StackEntry}
    (h : en' ∈ (laneOf y (setStack x rest s)).stack) : en' ∈ (laneOf y s).stack ∧ en'.id ≠ en.id := by
  have hmem := (setStack_lane x y hstack).2.subset h
  refine ⟨hmem, fun heq => ?_⟩
  have htop : en ∈ (laneOf x s).stack := hstack ▸ List.mem_cons_self
  have hxy : y = x := by
    rw [← (hline.stack_state y).2.2 en' hmem, heq, (hline.stack_state x).2.2 en htop]
  subst hxy
  have hids := (hline.stack_state y).2.1
  rw [hstack, List.map_cons, List.nodup_cons] at hids
  rw [laneOf_setStack, if_pos rfl] at h
  exact hids.1 (List.mem_map.mpr ⟨en', h, heq⟩)

theorem TagsFit.popped (h : TagsFit s) (hline : LineHolds (lineOf s)) {x : Lane} {en : StackEntry}
    {rest : List StackEntry} (hstack : (laneOf x s).stack = en :: rest)
    (ht : ∀ y, (laneOf y t).stack = (laneOf y (setStack x rest s)).stack)
    (hplace : ∀ id, id ≠ en.id → placeOf t id = placeOf s id) : TagsFit t :=
  h.of_same (fun y _ hen' => (mem_setStack hline hstack (ht y ▸ hen')).1) fun y _ hen' =>
    hplace _ (mem_setStack hline hstack (ht y ▸ hen')).2

theorem setStack_queue (x y : Lane) (st : List StackEntry) (s : State) :
    (laneOf y (setStack x st s)).queue = (laneOf y s).queue := by
  cases x <;> cases y <;> rfl

theorem setStack_rest (x : Lane) (st : List StackEntry) (s : State) :
    (setStack x st s).schedule = s.schedule ∧ (setStack x st s).composer = s.composer := by
  cases x <;> exact ⟨rfl, rfl⟩

theorem mem_withoutToken {id other : TokenId} (h : other ≠ id) (ts : List Token) :
    other ∈ (withoutToken id ts).map (·.id) ↔ other ∈ ts.map (·.id) := by
  simp only [withoutToken, List.mem_map, List.mem_filter, decide_eq_true_eq]
  constructor
  · rintro ⟨k, ⟨hk, -⟩, rfl⟩
    exact ⟨k, hk, rfl⟩
  · rintro ⟨k, hk, rfl⟩
    exact ⟨k, ⟨hk, h⟩, rfl⟩

theorem tagsFit_forgotten (h : TagsFit s) (hline : LineHolds (lineOf s)) {x : Lane} {en : StackEntry}
    {rest : List StackEntry} (hstack : (laneOf x s).stack = en :: rest) : TagsFit (setStack x rest s) :=
  h.popped hline hstack (fun _ => rfl) fun id _ => by
    simp only [placeOf, setStack_queue, setStack_rest]

theorem tagsFit_recalled (h : TagsFit s) (hline : LineHolds (lineOf s)) {x : Lane} {en : StackEntry}
    {rest : List StackEntry} (hstack : (laneOf x s).stack = en :: rest) :
    TagsFit (setQueue x (withoutToken en.id (laneOf x s).queue) (setStack x rest s)) := by
  refine h.popped hline hstack (fun y => by cases x <;> cases y <;> rfl) fun id hne => ?_
  have hrest : ∀ q u, (setQueue x q u).schedule = u.schedule ∧ (setQueue x q u).composer = u.composer :=
    fun q u => by cases x <;> exact ⟨rfl, rfl⟩
  simp only [placeOf, hrest, setStack_rest, laneOf_setQueue]
  split
  · next heq => rw [heq]; simp only [mem_withoutToken hne]
  · rw [setStack_queue]

theorem tagsFit_unscheduled (h : TagsFit s) (hline : LineHolds (lineOf s)) {x : Lane} {en : StackEntry}
    {rest : List StackEntry} (hstack : (laneOf x s).stack = en :: rest) :
    TagsFit { setStack x rest s with schedule := withoutToken en.id s.schedule } := by
  have hqueue : ∀ y, (laneOf y { setStack x rest s with schedule := withoutToken en.id s.schedule }).queue =
      (laneOf y s).queue := fun y => by cases x <;> cases y <;> rfl
  refine h.popped hline hstack (fun y => by cases x <;> cases y <;> rfl) fun id hne => ?_
  simp only [placeOf, hqueue]
  simp only [setStack_rest, mem_withoutToken hne]

theorem groupOf_filter_ne {id other : TokenId} (h : other ≠ id) (gs : List GroupRecord) :
    groupOf other (gs.filter fun g => g.id ≠ id) = groupOf other gs := by
  rw [groupOf, groupOf, List.find?_filter]
  congr 1
  funext g
  by_cases hg : g.id = other
  · simp [hg, h]
  · simp [hg]

theorem groupTaken_removeGroup {id other : TokenId} (h : other ≠ id) (c : Composer) :
    groupTaken (removeGroup id c) other = groupTaken c other := by
  rw [removeGroup]
  cases groupOf id c.groups with
  | none => rfl
  | some g => simp only [groupTaken, groupOf_filter_ne h]

theorem removeGroup_spans (id : TokenId) (c : Composer) : (removeGroup id c).spans = c.spans := by
  rw [removeGroup]
  cases groupOf id c.groups <;> rfl

theorem tagsFit_undone (h : TagsFit s) (hline : LineHolds (lineOf s)) {x : Lane} {en : StackEntry}
    {rest : List StackEntry} (hstack : (laneOf x s).stack = en :: rest) {left : List Span} {sp : Span}
    (hspans : s.composer.spans = left ++ [sp]) (hid : sp.id = en.id) :
    TagsFit (undoLast sp (setStack x rest s)) := by
  refine h.popped hline hstack (fun y => by rw [undone_lane]) fun id hne => ?_
  have hcomposer := undone_composer sp (setStack x rest s)
  rw [(setStack_rest x rest s).2] at hcomposer
  have hgroup : groupTaken (undoLast sp (setStack x rest s)).composer id = groupTaken s.composer id := by
    rw [hcomposer]
    exact groupTaken_removeGroup (hid ▸ hne) s.composer
  have hspan : id ∈ spanNamesOf (undoLast sp (setStack x rest s)).composer ↔
      id ∈ spanNamesOf s.composer := by
    rw [hcomposer, spanNamesOf, spanNamesOf, removeGroup_spans, hspans, List.dropLast_concat,
      List.map_append]
    simp [hid, hne]
  simp only [placeOf, undone_lane, undone_schedule, setStack_queue, setStack_rest, hgroup, hspan]

end Sys2Proof.Moves
end

section
/-! SUPPORT. Every stack tag fits where its token stands, concluded: new tokens, admissions, releases and
takes; and every move. -/

namespace Sys2Proof.Moves

open Sys2Proof.Machine Sys2Proof.Expect Sys2Proof.Safety Sys2Proof.ProgrammeTime
  Sys2Proof.FloorAndHandoff Sys2Proof.Effects Sys2Proof.Directives Sys2Proof.Schedules
  Sys2Proof.FrameEvents Sys2Proof.Records Sys2Proof.Corrections Sys2Proof.Emissions
  Sys2Proof.Images

variable {s t : State}

/-! ### New tokens and admissions (R98) -/

theorem tagsFit_queued (h : TagsFit s) (hline : LineHolds (lineOf s)) {k : Token}
    (hfresh : ¬ held k.id.lane s k.id.serial) : TagsFit (queued k s) := by
  obtain ⟨hschedule, hcomposer, -⟩ := queued_rest k s
  have hplace : ∀ id, id ≠ k.id → placeOf (queued k s) id = placeOf s id := fun id hne => by
    have hmem : id ∈ (laneOf id.lane (queued k s)).queue.map (·.id) ↔
        id ∈ (laneOf id.lane s).queue.map (·.id) := by
      rw [(laneOf_queued k _ s).1]
      split
      · rw [List.map_append, List.mem_append, or_iff_left (by simpa using hne)]
      · exact Iff.rfl
    simp only [placeOf, hmem, hschedule, hcomposer]
  have hnew : (placeOf (queued k s) k.id).waits = true := by
    refine decide_eq_true ?_
    rw [(laneOf_queued k _ s).1, if_pos rfl]
    simp
  have hold : ∀ x, ∀ en ∈ (laneOf x s).stack, en.id ≠ k.id := fun x en hen heq => by
    have hlane := (hline.stack_state x).2.2 en hen
    rw [heq] at hlane
    subst hlane
    exact hfresh (.inr (.inr (.inr (.inr ⟨en, hen, heq⟩))))
  intro x en hen
  rw [(laneOf_queued k x s).2] at hen
  have hcases : en = { tag := .waiting, id := k.id } ∨ en ∈ (laneOf x s).stack := by
    split at hen
    · rw [pushed] at hen
      split at hen
      · exact .inr hen
      · exact List.mem_cons.mp (List.mem_of_mem_take hen)
    · exact .inr hen
  rcases hcases with rfl | hen
  · rw [tagAt, if_pos hnew]
  · rw [hplace en.id (hold x en hen)]
    exact h x en hen

theorem tagsFit_entered (h : TagsFit s) (hline : LineHolds (lineOf s)) {x : Lane} {k : Token}
    {rest : List Token} (hqueue : (laneOf x s).queue = k :: rest)
    (hline' : LineHolds (lineOf (entered x k rest s))) : TagsFit (entered x k rest s) := by
  obtain ⟨hschedule, hcomposer, -⟩ := entered_rest x k rest s
  have hk : k ∈ (laneOf x s).queue := hqueue ▸ List.mem_cons_self
  have hlane : k.id.lane = x := ((hline.queue_state x).2.1 k hk).2
  have hids : (entered x k rest s).schedule.map (·.id) = s.schedule.map (·.id) ++ [k.id] := by
    rw [hschedule, List.map_append, List.map_singleton]
  refine h.notified hline [k.id] admitTag (fun y => entered_stack x y k rest s)
    (fun id hid old hold => ?_) fun id hid => ?_
  · obtain rfl := List.mem_singleton.mp hid
    have hwaits : (placeOf s k.id).waits = true :=
      decide_eq_true (by rw [hlane]; exact List.mem_map_of_mem hk)
    have htimed : (placeOf (entered x k rest s) k.id).timed = true :=
      decide_eq_true (by rw [hids]; simp)
    have hnot : (placeOf (entered x k rest s) k.id).waits = false :=
      Bool.eq_false_iff.mpr fun hw => by
        rw [((single_placeOf hline' k.id).waits hw).1] at htimed
        cases htimed
    rw [tagAt, if_pos hwaits] at hold
    rw [hold, tagAt, hnot, htimed]
    rfl
  · have hne : id ≠ k.id := by simpa using hid
    have hmem : id ∈ (laneOf id.lane (entered x k rest s)).queue.map (·.id) ↔
        id ∈ (laneOf id.lane s).queue.map (·.id) := by
      rw [laneOf_entered_queue]
      split
      · next heq => rw [heq, hqueue, List.map_cons, List.mem_cons, or_iff_right hne]
      · exact Iff.rfl
    simp only [placeOf, hmem, hids, hcomposer, List.mem_append, List.mem_singleton, hne, or_false]

/-! ### Releases (R99) -/

/-- A released token's tag (R99). -/
def releaseTag (cs : List Cell) (tag : Tag) : Tag :=
  if tag = .pending then (if cs = [] then .dropped else .composed) else tag

theorem groupTaken_joined {id : TokenId} {k : Token} (h : id ≠ k.id) (cs : List Cell) (c : Composer) :
    groupTaken (joined k cs c) id = groupTaken c id := by
  rw [groupTaken, groupTaken, joined]
  by_cases hnil : cs = []
  · simp [hnil]
  · simp [hnil, groupOf, List.find?_append, Ne.symm h]

theorem groupTaken_joined_self {k : Token} {c : Composer} (h : k.id ∉ groupNamesOf c) {cs : List Cell}
    (hcs : cs ≠ []) : groupTaken (joined k cs c) k.id = some false := by
  have hnone : groupOf k.id c.groups = none :=
    groupOf_eq_none fun g hg heq => h (List.mem_map.mpr ⟨g, hg, heq⟩)
  rw [groupOf] at hnone
  simp [groupTaken, joined, hcs, groupOf, List.find?_append, hnone]

theorem mem_spanNames_joined {id : TokenId} {k : Token} (cs : List Cell) (c : Composer) :
    id ∈ spanNamesOf (joined k cs c) ↔ id ∈ spanNamesOf c ∨ (cs ≠ [] ∧ id = k.id) := by
  rw [spanNamesOf, spanNamesOf, joined]
  by_cases hnil : cs = [] <;> simp [hnil]

/-- The release of the head on a row that is open for it. -/
theorem tagsFit_joined {u : State} (h : TagsFit u) (hline : LineHolds (lineOf u)) {k : Token}
    {rest : List Token} (hhead : u.schedule = k :: rest) (cs : List Cell)
    (hqueue : ∀ y, (laneOf y t).queue = (laneOf y u).queue) (hschedule : t.schedule = rest)
    (hspans : spanNamesOf t.composer = spanNamesOf (joined k cs u.composer))
    (hgroups : t.composer.groups = (joined k cs u.composer).groups)
    (hstack : ∀ y, (laneOf y t).stack = retagged y [k.id] (releaseTag cs) (laneOf y u).stack) :
    TagsFit t := by
  have hk : k.id ∈ u.schedule.map (·.id) := by rw [hhead]; simp
  have hids : ((k :: rest).map (·.id)).Nodup := hhead ▸ hline.scheduleIds
  rw [List.map_cons, List.nodup_cons] at hids
  have hsingle := single_placeOf hline k.id
  have htimed : (placeOf u k.id).timed = true := decide_eq_true hk
  have hnotWaits : (placeOf u k.id).waits = false := Bool.eq_false_iff.mpr fun hw => by
    rw [(hsingle.waits hw).1] at htimed
    cases htimed
  have hgroup : ∀ id, groupTaken t.composer id = groupTaken (joined k cs u.composer) id := fun id => by
    rw [groupTaken, groupTaken, hgroups]
  obtain ⟨hkGroup, hkSpan⟩ := hline.scheduleFresh k (show k ∈ u.schedule from hhead ▸ List.mem_cons_self)
  refine h.notified hline [k.id] (releaseTag cs) hstack (fun id hid old hold => ?_) fun id hid => ?_
  · obtain rfl := List.mem_singleton.mp hid
    have hwaits : (placeOf t k.id).waits = false := by
      simp only [placeOf, hqueue]
      exact hnotWaits
    have hgone : (placeOf t k.id).timed = false := by
      simp only [placeOf, hschedule]
      exact decide_eq_false hids.1
    rw [tagAt, hnotWaits, htimed] at hold
    have hpending : old = .pending := hold
    rw [tagAt_row ⟨hwaits, hgone⟩, hpending]
    by_cases hnil : cs = []
    · have hspanned : (placeOf t k.id).spanned = false := by
        simp only [placeOf, hspans, mem_spanNames_joined, hnil, ne_eq, not_true_eq_false, false_and,
          or_false]
        exact decide_eq_false hkSpan
      have hnone : (placeOf t k.id).group = none := by
        simp only [placeOf, hgroup, hnil]
        rw [show joined k [] u.composer = u.composer by simp [joined, columns]]
        exact groupTaken_eq_none hkGroup
      rw [hspanned, hnone, hnil]
      rfl
    · have hspanned : (placeOf t k.id).spanned = true := by
        simp only [placeOf, hspans, mem_spanNames_joined, hnil, ne_eq, not_false_eq_true, true_and,
          or_true, decide_true]
      have hsome : (placeOf t k.id).group = some false := by
        simp only [placeOf, hgroup]
        exact groupTaken_joined_self hkGroup hnil
      rw [hspanned, hsome, releaseTag, if_pos rfl, if_neg hnil]
      rfl
  · have hne : id ≠ k.id := by simpa using hid
    simp only [placeOf, hqueue, hschedule, hspans, mem_spanNames_joined, hgroup,
      groupTaken_joined hne, hne, and_false, or_false, hhead, List.map_cons, List.mem_cons, false_or]

theorem tagsFit_released (h : TagsFit s) (hline : LineHolds (lineOf s)) {k : Token} {rest : List Token}
    (hhead : s.schedule = k :: rest) : TagsFit (released k rest s) := by
  have hcomposer := released_composer k rest s
  have hstack := fun y => released_stack y k rest s
  generalize hg : composition k s.composer.cursor s.composer.layout.width = g at hcomposer hstack
  obtain ⟨roll, cs⟩ := g
  cases roll with
  | false =>
    exact tagsFit_joined h hline hhead cs (fun y => laneOf_released_queue y k rest s)
      (released_schedule k rest s) (by rw [hcomposer]; rfl) (by rw [hcomposer]; rfl) hstack
  | true =>
    refine tagsFit_joined (tagsFit_closed h hline) (lineHolds_closed hline)
      ((closed_same s).1.trans hhead) cs (fun y => ?_) (released_schedule k rest s)
      (by rw [hcomposer]; rfl) (by rw [hcomposer]; rfl) fun y => ?_
    · rw [laneOf_released_queue, (closed_same s).2.2]
    · rw [hstack, closed_stack]
      rfl

/-! ### Takes (R100) -/

theorem retagged_retagged (y : Lane) (ids : List TokenId) (f f' : Tag → Tag) (st : List StackEntry) :
    retagged y ids f (retagged y ids f' st) = retagged y ids (f ∘ f') st := by
  rw [retagged, retagged, retagged, List.map_map]
  refine List.map_congr_left fun en _ => ?_
  by_cases hcond : en.id ∈ ids ∧ en.id.lane = y
  · simp only [Function.comp_apply, if_pos hcond]
  · simp only [Function.comp_apply, if_neg hcond]

theorem laneOf_composer (y : Lane) (c : Composer) (s : State) :
    laneOf y { s with composer := c } = laneOf y s := by
  cases y <;> rfl

theorem measured_lane (counts : Option (Frame × Frame)) (y : Lane) (s : State) :
    laneOf y (measured counts s) = laneOf y s := by
  cases counts <;> cases y <;> rfl

/-- The tag of the front group's token once the group is begun (R100). -/
def begunTag (g : GroupRecord) (tag : Tag) : Tag :=
  if g.taken = 0 then (if tag = .composed then .sending else tag) else tag

theorem begun_stack (g : GroupRecord) (y : Lane) (s : State) :
    (laneOf y (begun g s)).stack = retagged y [g.id] (begunTag g) (laneOf y s).stack := by
  rw [begun]
  split
  · next hzero =>
    have htag : begunTag g = fun tag => if tag = .composed then .sending else tag :=
      funext fun tag => if_pos hzero
    rw [noticed_stack, htag]
  · next hsome =>
    have htag : begunTag g = id := funext fun tag => if_neg hsome
    rw [htag, retagged]
    refine ((List.map_congr_left fun en _ => ?_).trans (List.map_id _)).symm
    split <;> rfl

/-- The tag of the front group's token after a cell of it is taken (R100). -/
def takenTag (g : GroupRecord) (tag : Tag) : Tag :=
  if g.taken + 1 < g.composed then begunTag g tag
  else if begunTag g tag = .sending then .shown else begunTag g tag

/-- What a take makes of a tag that fits the front group's token (R100). -/
theorem takenTag_fits {g : GroupRecord} {spanned : Bool} {old : Tag}
    (hold : old = rowTag spanned (some (decide (g.taken ≠ 0))) old) :
    takenTag g old =
      rowTag spanned (if g.taken + 1 < g.composed then some true else none) (takenTag g old) := by
  cases spanned with
  | false =>
    have hclosed : begunTag g old = .closed := by
      rw [show old = .closed from hold, begunTag]
      split <;> rfl
    rw [takenTag, hclosed]
    split <;> rfl
  | true =>
    have hsending : begunTag g old = .sending := by
      rw [hold, begunTag]
      by_cases hzero : g.taken = 0 <;> simp [hzero, rowTag]
    rw [takenTag, hsending]
    split <;> rfl

theorem takeGroupCell_stack {g : GroupRecord} {gs : List GroupRecord}
    (hgroups : s.composer.groups = g :: gs) (k : Nat) (y : Lane) :
    (laneOf y (takeGroupCell k s)).stack = retagged y [g.id] (takenTag g) (laneOf y s).stack := by
  rw [takeGroupCell_eq hgroups]
  split
  · next hmore =>
    have htag : takenTag g = begunTag g := funext fun tag => if_pos hmore
    rw [laneOf_composer, begun_stack, htag]
  · next hlast =>
    have htag : takenTag g = (fun tag => if tag = .sending then .shown else tag) ∘ begunTag g :=
      funext fun tag => if_neg hlast
    rw [completeGroup_eq, measured_lane, noticed_stack, laneOf_composer, begun_stack, retagged_retagged,
      htag]

theorem groupTaken_cons {g : GroupRecord} {gs : List GroupRecord} {c : Composer}
    (h : c.groups = g :: gs) : groupTaken c g.id = some (decide (g.taken ≠ 0)) := by
  simp [groupTaken, h, groupOf]

theorem groupOf_cons_ne {id : TokenId} {g : GroupRecord} (h : id ≠ g.id) (gs : List GroupRecord) :
    groupOf id (g :: gs) = groupOf id gs :=
  List.find?_cons_of_neg (by simpa using h.symm)

/-- The front group's record after a take, and every other group's. -/
theorem groupTaken_advanced {g : GroupRecord} {gs : List GroupRecord} {c c' : Composer} {k : Nat}
    (hgroups : c.groups = g :: gs) (hids : (groupNamesOf c).Nodup)
    (hnew : c'.groups = advanced k (g :: gs)) :
    groupTaken c' g.id = (if g.taken + 1 < g.composed then some true else none) ∧
      ∀ id, id ≠ g.id → groupTaken c' id = groupTaken c id := by
  rw [groupNamesOf, hgroups, List.map_cons, List.nodup_cons] at hids
  rw [advanced] at hnew
  split_ifs at hnew with hmore
  · have hfront : groupTaken c' g.id = some true := by
      have := groupTaken_cons hnew
      rwa [advanceGroup, decide_eq_true (Nat.succ_ne_zero _)] at this
    refine ⟨by rw [if_pos hmore, hfront], fun id hne => ?_⟩
    rw [groupTaken, groupTaken, hnew, hgroups, groupOf_cons_ne hne, groupOf_cons_ne]
    exact hne
  · have hgone : groupTaken c' g.id = none := groupTaken_eq_none (by rw [groupNamesOf, hnew]; exact hids.1)
    refine ⟨by rw [if_neg hmore, hgone], fun id hne => ?_⟩
    rw [groupTaken, groupTaken, hnew, hgroups, groupOf_cons_ne hne]

theorem tagsFit_taken (h : TagsFit s) (hline : LineHolds (lineOf s)) {c : Cell} {rest : List Cell}
    (hcells : s.composer.cells = c :: rest) : TagsFit (takeCells 1 s) := by
  have hcomposer := taken_composer hcells
  have hspan : spanNamesOf (takeCells 1 s).composer = spanNamesOf s.composer := by rw [hcomposer]; rfl
  by_cases hc : isGroupCell c = true
  · rw [if_pos hc] at hcomposer
    cases hgroups : s.composer.groups with
    | nil =>
      have hcount : (s.composer.groups.map untaken).sum = (s.composer.cells.filter isGroupCell).length :=
        hline.composer.cells
      rw [hcells, hgroups, List.filter_cons_of_pos hc] at hcount
      cases hcount
    | cons g gs =>
      obtain ⟨hfront, hothers⟩ := groupTaken_advanced (k := cellColumns c) hgroups hline.composer.groupIds
        (c' := (takeCells 1 s).composer) (by rw [hcomposer, hgroups])
      refine h.notified hline [g.id] (takenTag g) (fun y => ?_) (fun id hid old hold => ?_) fun id hid => ?_
      · rw [takeCells_one hcells]
        dsimp only
        rw [if_pos hc]
        refine (takeGroupCell_stack (s := { s with composer := { s.composer with cells := rest } }) hgroups
          (cellColumns c) y).trans ?_
        rw [laneOf_composer]
      · obtain rfl := List.mem_singleton.mp hid
        have hgroup : (placeOf s g.id).group = some (decide (g.taken ≠ 0)) := groupTaken_cons hgroups
        have hrow := (single_placeOf hline g.id).of_group hgroup
        have hplace : placeOf (takeCells 1 s) g.id = { placeOf s g.id with
            group := if g.taken + 1 < g.composed then some true else none } := by
          simp only [placeOf, taken_queue, taken_schedule, hspan, hfront]
        rw [tagAt_row hrow, hgroup] at hold
        rw [hplace, tagAt_row (p := { placeOf s g.id with
          group := if g.taken + 1 < g.composed then some true else none }) hrow]
        exact takenTag_fits hold
      · have hne : id ≠ g.id := by simpa using hid
        simp only [placeOf, taken_queue, taken_schedule, hspan, hothers id hne]
  · rw [if_neg hc] at hcomposer
    refine h.of_same (fun y => ?_) fun y en _ => ?_
    · rw [takeCells_one hcells]
      dsimp only
      rw [if_neg hc, laneOf_composer]
      exact List.Subset.refl _
    · simp only [placeOf, taken_queue, taken_schedule, hspan]
      rw [hcomposer]
      rfl

/-! ### Every move -/

theorem tagsFit_of_empty (h : ∀ x, (laneOf x t).stack = []) : TagsFit t := fun x en hen => by
  rw [h x] at hen
  cases hen

theorem tagsFit_of_line (h : TagsFit s) (hline : lineOf t = lineOf s) : TagsFit t := by
  have hqueue : ∀ y, (laneOf y t).queue = (laneOf y s).queue := queue_of_line hline
  have hstack : ∀ y, (laneOf y t).stack = (laneOf y s).stack := fun y => by
    rw [← lineOf_stack, ← lineOf_stack, hline]
  have hschedule : t.schedule = s.schedule := congrArg Line.schedule hline
  have hcomposer : t.composer = s.composer := congrArg Line.composer hline
  exact h.of_same (fun y => by rw [hstack]; exact List.Subset.refl _) fun y en _ => by
    simp only [placeOf, hqueue, hschedule, hcomposer]

/-- Every move keeps every stack tag the one that fits. -/
theorem Move.tags {s₀ t : State} (h : Move s₀ s t) (hline : LineHolds (lineOf s))
    (hline' : LineHolds (lineOf t)) (hs : TagsFit s)
    (hload : ∀ S, Loads s₀ s S → TagsFit (loadSections s.image.words S s)) : TagsFit t := by
  cases h with
  | aside h => exact tagsFit_of_line hs h.line
  | queued x kind sentEnd attach text => exact tagsFit_queued hs hline (not_held_serialFor hline x)
  | shed x => exact tagsFit_shed hs hline x
  | entered x k rest hqueue => exact tagsFit_entered hs hline hqueue hline'
  | passed x => exact tagsFit_passed hs hline x
  | discarded k rest hhead => exact tagsFit_discarded hs hline hhead
  | released k rest hhead => exact tagsFit_released hs hline hhead
  | flushed x => exact tagsFit_flushed hs hline x
  | laid l => exact tagsFit_laid hs hline l
  | cleared => exact tagsFit_cleared hs hline
  | forgotten x en rest hstack => exact tagsFit_forgotten hs hline hstack
  | recalled x en rest hstack => exact tagsFit_recalled hs hline hstack
  | unscheduled x en rest hstack => exact tagsFit_unscheduled hs hline hstack
  | undone x en rest left sp hstack _ hspans hid => exact tagsFit_undone hs hline hstack hspans hid
  | taken c rest hcells => exact tagsFit_taken hs hline hcells
  | restarted => exact tagsFit_of_empty fun x => by cases x <;> rfl
  | reset => exact tagsFit_of_empty fun x => by cases x <;> rfl
  | loaded S hhigh htime himage hfill hvalid => exact hload S ⟨hhigh, htime, himage, hfill, hvalid⟩

end Sys2Proof.Moves
end

section
/-! SUPPORT. How cell queue, group records and spans stand to one another (R75 to R79, R107), kept by
every operation of the row composer. -/

namespace Sys2Proof.Moves

open Sys2Proof.Machine Sys2Proof.Expect Sys2Proof.Safety Sys2Proof.ProgrammeTime
  Sys2Proof.FloorAndHandoff Sys2Proof.Effects Sys2Proof.Directives Sys2Proof.Schedules
  Sys2Proof.FrameEvents Sys2Proof.Records Sys2Proof.Corrections Sys2Proof.Emissions
  Sys2Proof.Images

/-! ### Runs -/

theorem runsStand_append {gs hs : List GroupRecord} {cs ds : List Cell} (h : runsStand gs cs)
    (h' : runsStand hs ds) : runsStand (gs ++ hs) (cs ++ ds) := by
  induction gs generalizing cs with
  | nil =>
    cases hs with
    | nil => exact fun c hc => (List.mem_append.mp hc).elim (h c) (h' c)
    | cons g rest =>
      obtain ⟨front, own, back, rfl, hfront, hrest⟩ := h'
      exact ⟨cs ++ front, own, back, by simp, fun c hc => (List.mem_append.mp hc).elim (h c) (hfront c),
        hrest⟩
  | cons g rest ih =>
    obtain ⟨front, own, back, rfl, hfront, hlen, hown, hmarker, hback⟩ := h
    exact ⟨front, own, back ++ ds, by simp, hfront, hlen, hown, hmarker, ih hback⟩

theorem runsStand_single {g : GroupRecord} {cs : List Cell} (hlen : cs.length = untaken g)
    (hcs : ∀ c ∈ cs, isGroupCell c = true) (hmarker : .marker ∈ cs → g.composed = 1) :
    runsStand [g] cs :=
  ⟨[], cs, [], by simp, nofun, hlen, hcs, hmarker, nofun⟩

/-- Cells that are both of a group and of none are none. -/
theorem eq_nil_of_both {cs : List Cell} (h : ∀ c ∈ cs, isGroupCell c = false)
    (h' : ∀ c ∈ cs, isGroupCell c = true) : cs = [] :=
  List.eq_nil_iff_forall_not_mem.mpr fun c hc => by
    have := (h c hc).symm.trans (h' c hc)
    cases this

/-- The last group's run stands at the tail of a queue of group cells. -/
theorem runsStand_concat {gs : List GroupRecord} {g : GroupRecord} {own : List Cell}
    (h : runsStand (gs ++ [g]) own) (hown : ∀ c ∈ own, isGroupCell c = true) :
    ∃ ahead run, own = ahead ++ run ∧ runsStand gs ahead ∧ run.length = untaken g := by
  induction gs generalizing own with
  | nil =>
    obtain ⟨front, run, back, rfl, hfront, hlen, -, -, hback⟩ := h
    obtain rfl := eq_nil_of_both hfront fun c hc => hown c (by simp [hc])
    obtain rfl := eq_nil_of_both hback fun c hc => hown c (by simp [hc])
    exact ⟨[], run, by simp, nofun, hlen⟩
  | cons k rest ih =>
    obtain ⟨front, first, back, rfl, hfront, hlen, hfirst, hmarker, hback⟩ := h
    obtain rfl := eq_nil_of_both hfront fun c hc => hown c (by simp [hc])
    obtain ⟨ahead, run, rfl, hahead, hrun⟩ := ih hback fun c hc => hown c (by simp [hc])
    exact ⟨first ++ ahead, run, by simp, ⟨[], first, ahead, rfl, nofun, hlen, hfirst, hmarker, hahead⟩,
      hrun⟩

/-- A queue with a group's run in it holds a group cell. -/
theorem ne_nil_of_runs {gs : List GroupRecord} {cs : List Cell} (h : runsStand gs cs)
    (hgs : ∀ g ∈ gs, g.taken < g.composed) (hne : gs ≠ []) : cs ≠ [] := by
  rintro rfl
  have hcount := runsStand_count h
  have := length_le_sum_untaken hgs
  have := List.length_pos_iff.mpr hne
  simp only [List.filter_nil, List.length_nil] at hcount
  omega

theorem groups_nil_of_runs_nil {gs : List GroupRecord} (h : runsStand gs [])
    (hgs : ∀ g ∈ gs, g.taken < g.composed) : gs = [] := by
  by_contra hne
  exact ne_nil_of_runs h hgs hne rfl

/-- The runs after the front group cell is taken. -/
theorem runsStand_advanced {g : GroupRecord} {gs : List GroupRecord} {x : Cell} {cs : List Cell}
    (h : runsStand (g :: gs) (x :: cs)) (hx : isGroupCell x = true) (hg : g.taken < g.composed) (k : Nat) :
    runsStand (advanced k (g :: gs)) cs := by
  obtain ⟨-, own, back, rfl, hlen, hown, hback⟩ := (runsStand_cons_of_group hx hg gs cs).mp h
  rw [untaken] at hlen
  rw [advanced]
  split
  · refine ⟨[], own, back, rfl, nofun, ?_, fun c hc => (hown c hc).1, fun hm => ?_, hback⟩
    · simp only [advanceGroup]
      omega
    · exact absurd rfl (hown _ hm).2
  · obtain rfl : own = [] := List.length_eq_zero_iff.mp (by omega)
    exact hback

/-! ### The row in order -/

/-- A cell that opens a row. -/
def opens (x : Cell) : Prop := x = .roll ∨ x = .blank ∨ ∃ l w, x = .placeCol l w

theorem not_group_of_opens {x : Cell} (h : opens x) : isGroupCell x = false := by
  rcases h with rfl | rfl | ⟨l, w, rfl⟩ <;> rfl

/-- Only the group at the front of the queue has cells taken. -/
def onlyFrontTaken (c : Composer) : Prop :=
  ∀ ahead g behind, c.groups = ahead ++ g :: behind → 0 < g.taken →
    ahead = [] ∧ ∃ x rest, c.cells = x :: rest ∧ isGroupCell x = true

/-- The row composer in the order that `ordered` asks for, besides what `ComposerHolds` says. -/
structure RowOrdered (c : Composer) : Prop where
  room : c.cells.length ≤ 64
  cells : ∀ x ∈ c.cells, cellInRange x
  groups : ∀ g ∈ c.groups, g.composed ≤ 33 ∧ g.columnsTaken = g.taken
  row : rowStands c
  starts : ∀ left sp right, c.spans = left ++ sp :: right → sp.start = (left.map (·.columns)).sum

/-- Cells at the tail leave the front as it is. -/
theorem onlyFrontTaken_append {c c' : Composer} (h : onlyFrontTaken c) {cs : List Cell}
    (hcells : c'.cells = c.cells ++ cs) (hgroups : c'.groups = c.groups) : onlyFrontTaken c' := by
  intro ahead g behind heq htaken
  obtain ⟨hahead, x, rest, hx, hgroup⟩ := h ahead g behind (hgroups ▸ heq) htaken
  exact ⟨hahead, x, rest ++ cs, by rw [hcells, hx, List.cons_append], hgroup⟩

/-- A group with no cell taken joins the table's tail. -/
theorem onlyFrontTaken_concat {c c' : Composer} (h : onlyFrontTaken c) {cs : List Cell} {g : GroupRecord}
    (hcells : c'.cells = c.cells ++ cs) (hgroups : c'.groups = c.groups ++ [g]) (hg : g.taken = 0) :
    onlyFrontTaken c' := by
  intro ahead q behind heq htaken
  rw [hgroups] at heq
  rcases List.eq_nil_or_concat' behind with rfl | ⟨more, last, rfl⟩
  · obtain ⟨-, hlast⟩ := List.append_inj' heq rfl
    obtain rfl : g = q := by simpa using hlast
    omega
  · rw [← List.cons_append, ← List.append_assoc] at heq
    obtain ⟨heq, -⟩ := List.append_inj' heq rfl
    obtain ⟨hahead, x, rest, hx, hgroup⟩ := h ahead q more heq htaken
    exact ⟨hahead, x, rest ++ cs, by rw [hcells, hx, List.cons_append], hgroup⟩

/-- A row closed, and a cell that opens a new one at the tail. -/
theorem rowStands_reopened {c c' : Composer} (h : rowStands c) {front : List Cell} {x : Cell}
    (hfront : ∀ y ∈ front, isGroupCell y = false) (hx : opens x)
    (hcells : c'.cells = c.cells ++ (front ++ [x])) (hgroups : c'.groups = c.groups)
    (hspans : c'.spans = []) : rowStands c' := by
  obtain ⟨old, own, gone, groups, out, live, hc, hg, -, -, -, hgone, hruns, -, hfrontTaken, -⟩ := h
  refine ⟨old ++ own ++ (front ++ [x]), [], gone ++ groups, [], [], [], ?_, ?_, hspans, rfl, .nil, ?_,
    nofun, nofun, onlyFrontTaken_append hfrontTaken hcells hgroups, .inr ⟨rfl, nofun, old ++ own ++ front, x,
      by simp, hx⟩⟩
  · rw [hcells, hc, List.append_nil]
  · rw [hgroups, hg, List.append_nil]
  · have htail : runsStand [] (front ++ [x]) := fun y hy =>
      (List.mem_append.mp hy).elim (hfront y) fun hy => List.mem_singleton.mp hy ▸ not_group_of_opens hx
    have := runsStand_append (runsStand_append hgone hruns) htail
    rwa [List.append_nil] at this

/-- A window cleared, with a cell that opens a new row at the tail. -/
theorem rowStands_of_empty {c : Composer} {front : List Cell} {x : Cell}
    (hfront : ∀ y ∈ front, isGroupCell y = false) (hx : opens x) (hcells : c.cells = front ++ [x])
    (hgroups : c.groups = []) (hspans : c.spans = []) : rowStands c := by
  refine ⟨front ++ [x], [], [], [], [], [], by rw [hcells, List.append_nil], hgroups, hspans, rfl, .nil, ?_,
    nofun, nofun, fun ahead g behind heq => ?_, .inr ⟨rfl, nofun, front, x, rfl, hx⟩⟩
  · exact fun y hy => (List.mem_append.mp hy).elim (hfront y) fun hy =>
      List.mem_singleton.mp hy ▸ not_group_of_opens hx
  · rw [hgroups] at heq
    cases ahead <;> cases heq

/-- A group composed onto the row. -/
theorem rowStands_joined {c : Composer} (h : rowStands c) (k : Token) {cs : List Cell}
    (hcs : ∀ x ∈ cs, isGroupCell x = true) (hmarker : .marker ∈ cs → cs.length = 1) :
    rowStands (joined k cs c) := by
  by_cases hnil : cs = []
  · subst hnil
    have hsame : joined k [] c = c := by simp [joined, columns]
    rwa [hsame]
  obtain ⟨old, own, gone, groups, out, live, hc, hg, hs, hids, hcols, hgone, hruns, hown, hfrontTaken,
    hcase⟩ := h
  let g : GroupRecord := ⟨k.id, some (k.speech, k.arrival), cs.length, 0, 0⟩
  let sp : Span := ⟨k.id, c.cursor, columns cs⟩
  have hcells' : (joined k cs c).cells = old ++ (own ++ cs) := by
    simp only [joined, hc, List.append_assoc]
  have hgroups' : (joined k cs c).groups = gone ++ (groups ++ [g]) := by
    simp only [joined, hg, if_neg hnil, List.append_assoc, g]
  have hspans' : (joined k cs c).spans = out ++ (live ++ [sp]) := by
    simp only [joined, hs, if_neg hnil, List.append_assoc, sp]
  refine ⟨old, own ++ cs, gone, groups ++ [g], out, live ++ [sp], hcells', hgroups', hspans', ?_, ?_, hgone,
    runsStand_append hruns (runsStand_single rfl hcs hmarker), ?_, ?_, ?_⟩
  · rw [List.map_append, List.map_append, hids]
    rfl
  · exact List.rel_append hcols (.cons (length_le_columns cs) .nil)
  · exact fun x hx => (List.mem_append.mp hx).elim (hown x) (hcs x)
  · exact onlyFrontTaken_concat (cs := cs) (g := g) hfrontTaken rfl
      (by rw [hgroups', hg, List.append_assoc]) rfl
  · refine hcase.imp ?_ ?_
    · rintro ⟨hgoneNil, herase, hsum⟩
      exact ⟨hgoneNil, herase, by simpa [g] using hsum⟩
    · rintro ⟨hout, htaken, hopen⟩
      refine ⟨hout, fun q hq => ?_, hopen⟩
      rcases List.mem_append.mp hq with hq | hq
      · exact htaken q hq
      · rw [List.mem_singleton.mp hq]

/-! ### Undoing the last span -/

theorem eq_concat_of_append_concat {α : Type} {out live left : List α} {sp : α}
    (h : out ++ live = left ++ [sp]) :
    (live = [] ∧ out = left ++ [sp]) ∨ ∃ more, live = more ++ [sp] ∧ left = out ++ more := by
  rcases List.eq_nil_or_concat' live with rfl | ⟨more, last, rfl⟩
  · exact .inl ⟨rfl, by simpa using h⟩
  · rw [← List.append_assoc] at h
    obtain ⟨hleft, hlast⟩ := List.append_inj' h rfl
    obtain rfl : last = sp := by simpa using hlast
    exact .inr ⟨more, rfl, hleft.symm⟩

theorem length_le_erased {cs : List Cell} (h : ∀ x ∈ cs, ∃ k, x = .erase k)
    (hrange : ∀ x ∈ cs, cellInRange x) :
    cs.length ≤ erased cs := by
  induction cs with
  | nil => exact Nat.zero_le _
  | cons x rest ih =>
    obtain ⟨k, rfl⟩ := h x (by simp)
    have hk : 1 ≤ k ∧ k ≤ 40 := hrange (.erase k) (by simp)
    have := ih (fun y hy => h y (by simp [hy])) fun y hy => hrange y (by simp [hy])
    simp only [erased, List.map_cons, List.sum_cons, List.length_cons] at this ⊢
    omega

theorem erased_append (cs ds : List Cell) : erased (cs ++ ds) = erased cs + erased ds := by
  simp [erased]

/-- The last span's group removed from the row: its record was the last, and its cells stood at the
tail. -/
theorem removeGroup_last {c : Composer} {ahead : List GroupRecord} {g : GroupRecord} {front run : List Cell}
    (hgroups : c.groups = ahead ++ [g]) (hids : (groupNamesOf c).Nodup) (hcells : c.cells = front ++ run)
    (hfront : runsStand ahead front) (hrun : ∀ x ∈ run, isGroupCell x = true)
    (hlen : run.length = untaken g) :
    removeGroup g.id c = { c with cells := front, groups := ahead } := by
  rw [groupNamesOf, hgroups, List.map_append, List.map_singleton, List.nodup_append] at hids
  obtain ⟨-, -, hne⟩ := hids
  have hothers : ∀ k ∈ ahead ++ [], k.id ≠ g.id := fun k hk =>
    hne k.id (List.mem_map_of_mem (by simpa using hk)) g.id (by simp)
  have := removeGroup_eq (c := c) (behind := []) (back := []) hgroups rfl hothers
    (hcells.trans (by simp)) (runsStand_count hfront).symm hrun hlen
  simpa using this

theorem takenColumns_last {c : Composer} {ahead : List GroupRecord} {g : GroupRecord} {sp : Span}
    (hgroups : c.groups = ahead ++ [g]) (hids : (groupNamesOf c).Nodup) (hid : g.id = sp.id) :
    takenColumns sp c = g.columnsTaken := by
  rw [groupNamesOf, hgroups, List.map_append, List.map_singleton, List.nodup_append] at hids
  obtain ⟨-, -, hne⟩ := hids
  have hsome : groupOf sp.id c.groups = some g := by
    rw [hgroups]
    exact groupOf_append (fun k hk => hid ▸ hne k.id (List.mem_map_of_mem hk) g.id (by simp)) hid []
  rw [takenColumns, hsome]

/-- The last span's token has all its cells taken: ERASE of its columns joins the tail. -/
theorem rowOrdered_undone_out {c c' : Composer} (h : RowOrdered c) {left : List Span} {sp : Span}
    (hpos : 1 ≤ sp.columns) (herase : ∀ x ∈ c.cells, ∃ k, x = .erase k)
    (hsum : erased c.cells + ((left ++ [sp]).map (·.columns)).sum ≤ 40)
    (hcells' : c'.cells = c.cells ++ [.erase sp.columns]) (hgroups' : c'.groups = [])
    (hspans' : c'.spans = left)
    (hstarts : ∀ l q r, left = l ++ q :: r → q.start = (l.map (·.columns)).sum) : RowOrdered c' := by
  have hlen := length_le_erased herase h.cells
  rw [List.map_append, List.sum_append, List.map_singleton, List.sum_singleton] at hsum
  have herase' : ∀ x ∈ c.cells ++ [.erase sp.columns], ∃ k, x = .erase k := fun x hx =>
    (List.mem_append.mp hx).elim (herase x) fun hx => ⟨_, List.mem_singleton.mp hx⟩
  refine ⟨?_, fun x hx => ?_, by simp [hgroups'], ?_, by rwa [hspans']⟩
  · rw [hcells', List.length_append, List.length_singleton]
    omega
  · rw [hcells'] at hx
    rcases List.mem_append.mp hx with hx | hx
    · exact h.cells x hx
    · rw [List.mem_singleton.mp hx]
      exact ⟨hpos, by omega⟩
  · refine ⟨c.cells ++ [.erase sp.columns], [], [], [], left, [], by simp [hcells'], hgroups',
      by simp [hspans'], rfl, .nil, fun x hx => ?_, nofun, nofun, fun ahead g behind heq => ?_, .inl ⟨rfl,
        herase', ?_⟩⟩
    · obtain ⟨k, rfl⟩ := herase' x hx
      rfl
    · rw [hgroups'] at heq
      cases ahead <;> cases heq
    · rw [erased_append, show erased [.erase sp.columns] = sp.columns from rfl]
      simp only [List.map_nil, List.sum_nil]
      omega

/-- How the row stands without its last span and that span's group, whose cells stood at the tail. -/
structure TailSplit (c : Composer) (left : List Span) (sp : Span) where
  old : List Cell
  ahead : List Cell
  run : List Cell
  gone : List GroupRecord
  groups : List GroupRecord
  group : GroupRecord
  out : List Span
  live : List Span
  cells_eq : c.cells = old ++ ahead ++ run
  groups_eq : c.groups = gone ++ groups ++ [group]
  left_eq : left = out ++ live
  named : group.id = sp.id
  names : groups.map (·.id) = live.map (·.id)
  columns : groups.Forall₂ (fun g sp => g.composed ≤ sp.columns) live
  goneRuns : runsStand gone old
  runs : runsStand groups ahead
  length : run.length = untaken group
  runCells : ∀ x ∈ run, isGroupCell x = true
  aheadCells : ∀ x ∈ ahead, isGroupCell x = true
  cases : (gone = [] ∧ (∀ x ∈ old, ∃ k, x = .erase k) ∧
      erased old + (out.map (·.columns)).sum + ((groups ++ [group]).map (·.taken)).sum ≤ 40) ∨
    (out = [] ∧ (∀ g ∈ groups ++ [group], g.taken = 0) ∧ ∃ front x, old = front ++ [x] ∧ opens x)

/-- The last span's token has no cell taken: its cells and its record go. -/
theorem rowOrdered_undone_whole {c c' : Composer} (h : RowOrdered c)
    (htaken : ∀ g ∈ c.groups, g.taken < g.composed)
    (hfront : onlyFrontTaken c) {left : List Span} {sp : Span} (v : TailSplit c left sp)
    (hcells' : c'.cells = v.old ++ v.ahead) (hgroups' : c'.groups = v.gone ++ v.groups)
    (hspans' : c'.spans = left)
    (hstarts : ∀ l q r, left = l ++ q :: r → q.start = (l.map (·.columns)).sum) : RowOrdered c' := by
  have hcellsSub : c'.cells ⊆ c.cells := by
    rw [hcells', v.cells_eq]
    exact List.subset_append_left _ _
  have hgroupsSub : c'.groups ⊆ c.groups := by
    rw [hgroups', v.groups_eq]
    exact List.subset_append_left _ _
  refine ⟨?_, fun x hx => h.cells x (hcellsSub hx), fun g hg => h.groups g (hgroupsSub hg), ?_,
    by rwa [hspans']⟩
  · have := h.room
    rw [v.cells_eq, List.length_append] at this
    rw [hcells']
    omega
  · refine ⟨v.old, v.ahead, v.gone, v.groups, v.out, v.live, hcells', hgroups', hspans'.trans v.left_eq,
      v.names, v.columns, v.goneRuns, v.runs, v.aheadCells, fun ahead g behind heq hg => ?_, ?_⟩
    · rw [hgroups'] at heq
      obtain ⟨hahead, x, rest, hx, hgroup⟩ := hfront ahead g (behind ++ [v.group])
        (by rw [v.groups_eq, heq, List.append_assoc, List.cons_append]) hg
      refine ⟨hahead, ?_⟩
      have hne : v.old ++ v.ahead ≠ [] := ne_nil_of_runs (runsStand_append v.goneRuns v.runs)
        (fun k hk => htaken k (hgroupsSub (hgroups' ▸ hk))) (by rw [heq]; simp)
      obtain ⟨y, more, hy⟩ := List.exists_cons_of_ne_nil hne
      rw [v.cells_eq, hy, List.cons_append] at hx
      obtain ⟨rfl, -⟩ := List.cons_eq_cons.mp hx
      exact ⟨y, more, hcells'.trans hy, hgroup⟩
    · refine v.cases.imp ?_ ?_
      · rintro ⟨hgone, herase, hsum⟩
        rw [List.map_append, List.sum_append] at hsum
        exact ⟨hgone, herase, by omega⟩
      · rintro ⟨hout, hzero, hopen⟩
        exact ⟨hout, fun g hg => hzero g (List.mem_append_left _ hg), hopen⟩

/-- The last span's token has cells taken: its record is the only one and its cells the whole queue, and
ERASE of the columns taken takes their place. -/
theorem rowOrdered_undone_part {c c' : Composer}
    (hfront : onlyFrontTaken c) {left : List Span} {sp : Span} (v : TailSplit c left sp)
    (hsome : 0 < v.group.taken)
    (hcells' : c'.cells = v.old ++ v.ahead ++ [.erase v.group.taken])
    (hgroups' : c'.groups = v.gone ++ v.groups) (hspans' : c'.spans = left)
    (hstarts : ∀ l q r, left = l ++ q :: r → q.start = (l.map (·.columns)).sum) : RowOrdered c' := by
  obtain ⟨hnil, x, rest, hx, hgroup⟩ := hfront (v.gone ++ v.groups) v.group [] v.groups_eq hsome
  obtain ⟨hgone, hgroups⟩ := List.append_eq_nil_iff.mp hnil
  have haheadNil : v.ahead = [] := by
    have hruns := v.runs
    rw [hgroups] at hruns
    exact eq_nil_of_both hruns v.aheadCells
  have holdNil : v.old = [] := by
    have hruns := v.goneRuns
    rw [hgone] at hruns
    rw [v.cells_eq] at hx
    cases hold : v.old with
    | nil => rfl
    | cons y more =>
      rw [hold, List.cons_append, List.cons_append] at hx
      obtain ⟨rfl, -⟩ := List.cons_eq_cons.mp hx
      have hnot := hruns y (by rw [hold]; simp)
      rw [hgroup] at hnot
      cases hnot
  have hliveNil : v.live = [] := by
    have := v.names
    rw [hgroups] at this
    simpa using this.symm
  have hsum : (v.out.map (·.columns)).sum + v.group.taken ≤ 40 := by
    rcases v.cases with ⟨-, -, hsum⟩ | ⟨-, hzero, -⟩
    · rw [List.map_append, List.sum_append, List.map_singleton, List.sum_singleton] at hsum
      omega
    · have := hzero v.group (by simp)
      omega
  rw [holdNil, haheadNil] at hcells'
  have hcells : c'.cells = [.erase v.group.taken] := hcells'
  have hgroupsNil : c'.groups = [] := by rw [hgroups', hgone, hgroups]; rfl
  refine ⟨by rw [hcells]; exact Nat.le_add_left 1 63, fun y hy => ?_, by simp [hgroupsNil], ?_,
    by rwa [hspans']⟩
  · rw [hcells, List.mem_singleton] at hy
    rw [hy]
    exact ⟨hsome, by omega⟩
  · refine ⟨[.erase v.group.taken], [], [], [], v.out, [], by simp [hcells], hgroupsNil, ?_, rfl, .nil,
      fun y hy => ?_, nofun, nofun, fun ahead g behind heq => ?_, .inl ⟨rfl, fun y hy =>
        ⟨_, List.mem_singleton.mp hy⟩, ?_⟩⟩
    · exact hspans'.trans (v.left_eq.trans (by rw [hliveNil]))
    · rw [List.mem_singleton.mp hy]
      rfl
    · rw [hgroupsNil] at heq
      cases ahead <;> cases heq
    · rw [show erased [.erase v.group.taken] = v.group.taken from rfl]
      simp only [List.map_nil, List.sum_nil]
      omega

theorem rowOrdered_undone {s : State} (h : RowOrdered s.composer) (hc : ComposerHolds s.composer)
    {left : List Span} {sp : Span} (hspans : s.composer.spans = left ++ [sp]) :
    RowOrdered (undoLast sp s).composer := by
  have hcomposer := undone_composer sp s
  have hrow := h.row
  obtain ⟨old, own, gone, groups, out, live, hcells, hgroups, hs, hids, hcols, hgone, hruns, hown,
    hfrontTaken, hcase⟩ := hrow
  have hstarts : ∀ l q r, left = l ++ q :: r → q.start = (l.map (·.columns)).sum := fun l q r heq =>
    h.starts l q (r ++ [sp]) (by rw [hspans, heq, List.append_assoc, List.cons_append])
  have hdrop : (undoLast sp s).composer.spans = left := by
    rw [hcomposer]
    show (removeGroup sp.id s.composer).spans.dropLast = left
    rw [removeGroup_spans, hspans, List.dropLast_concat]
  have hpos : 1 ≤ sp.columns := hc.columns sp (by simp [hspans])
  rcases eq_concat_of_append_concat (hs.symm.trans hspans) with ⟨rfl, hout⟩ | ⟨more, rfl, hleft⟩
  · obtain rfl : groups = [] := by simpa using hids
    obtain rfl : own = [] := eq_nil_of_both hruns hown
    obtain ⟨rfl, herase, hsum⟩ : gone = [] ∧ (∀ x ∈ old, ∃ k, x = .erase k) ∧
        erased old + (out.map (·.columns)).sum + (([] : List GroupRecord).map (·.taken)).sum ≤ 40 :=
      hcase.resolve_right fun ⟨hnil, _⟩ => by simp [hout] at hnil
    have hnone : groupOf sp.id s.composer.groups = none := by rw [hgroups]; rfl
    have hremoved : removeGroup sp.id s.composer = s.composer := by rw [removeGroup, hnone]
    have hk : takenColumns sp s.composer = sp.columns := by rw [takenColumns, hnone]
    rw [List.append_nil] at hcells
    rw [hremoved, hk, if_neg (by omega)] at hcomposer
    exact rowOrdered_undone_out h hpos (hcells ▸ herase)
      (by rw [hcells, ← hout]; simpa using hsum) (by rw [hcomposer]) (by rw [hcomposer]; exact hgroups)
      hdrop hstarts
  · rcases List.eq_nil_or_concat' groups with rfl | ⟨gs, g, rfl⟩
    · simp at hids
    rw [List.map_append, List.map_append] at hids
    obtain ⟨hnames, hname⟩ := List.append_inj' hids rfl
    obtain ⟨ahead, run, rfl, hahead, hlen⟩ := runsStand_concat hruns hown
    let v : TailSplit s.composer left sp :=
      { old := old, ahead := ahead, run := run, gone := gone, groups := gs, group := g, out := out,
        live := more, cells_eq := by rw [hcells, List.append_assoc]
        groups_eq := by rw [hgroups, List.append_assoc]
        left_eq := hleft, named := by simpa using hname, names := hnames
        columns := by
          have := List.forall₂_take_append _ _ _ hcols
          have hlength : more.length = gs.length := by simpa using (congrArg List.length hnames).symm
          rwa [hlength, List.take_left] at this
        goneRuns := hgone, runs := hahead, length := hlen
        runCells := fun x hx => hown x (by simp [hx]), aheadCells := fun x hx => hown x (by simp [hx])
        cases := hcase }
    have hremoved := removeGroup_last v.groups_eq hc.groupIds v.cells_eq
      (runsStand_append v.goneRuns v.runs) v.runCells v.length
    have hg : g ∈ s.composer.groups := by rw [hgroups]; simp
    have hk : takenColumns sp s.composer = g.taken :=
      (takenColumns_last v.groups_eq hc.groupIds v.named).trans (h.groups g hg).2
    rw [v.named] at hremoved
    rw [hremoved, hk] at hcomposer
    by_cases hzero : g.taken = 0
    · rw [if_pos hzero, List.append_nil] at hcomposer
      exact rowOrdered_undone_whole h hc.taken hfrontTaken v (by rw [hcomposer]) (by rw [hcomposer]) hdrop
        hstarts
    · rw [if_neg hzero] at hcomposer
      exact rowOrdered_undone_part hfrontTaken v (Nat.pos_of_ne_zero hzero) (by rw [hcomposer])
        (by rw [hcomposer]) hdrop hstarts

end Sys2Proof.Moves
end

section
/-! SUPPORT. How cell queue, group records and spans stand to one another, concluded: takes, releases,
and every move. -/

namespace Sys2Proof.Moves

open Sys2Proof.Machine Sys2Proof.Expect Sys2Proof.Safety Sys2Proof.ProgrammeTime
  Sys2Proof.FloorAndHandoff Sys2Proof.Effects Sys2Proof.Directives Sys2Proof.Schedules
  Sys2Proof.FrameEvents Sys2Proof.Records Sys2Proof.Corrections Sys2Proof.Emissions
  Sys2Proof.Images

/-! ### Takes (R77, R121) -/

/-- A cell of no group leaves the front. -/
theorem rowStands_taken_other {c c' : Composer} (h : rowStands c)
    (htaken : ∀ g ∈ c.groups, g.taken < g.composed)
    {x : Cell} {rest : List Cell} (hx : c.cells = x :: rest) (hother : isGroupCell x = false)
    (hcells' : c'.cells = rest) (hgroups' : c'.groups = c.groups) (hspans' : c'.spans = c.spans) :
    rowStands c' := by
  obtain ⟨old, own, gone, groups, out, live, hcells, hgroups, hs, hids, hcols, hgone, hruns, hown,
    hfront, hcase⟩ := h
  have hnone : ∀ ahead g behind, c.groups = ahead ++ g :: behind → ¬ 0 < g.taken := by
    intro ahead g behind heq hg
    obtain ⟨-, y, more, hy, hgroup⟩ := hfront ahead g behind heq hg
    obtain ⟨rfl, -⟩ := List.cons_eq_cons.mp (hx.symm.trans hy)
    rw [hother] at hgroup
    cases hgroup
  have hzero : ∀ g ∈ groups, g.taken = 0 := fun g hg => by
    have hmem : g ∈ c.groups := by rw [hgroups]; exact List.mem_append_right _ hg
    obtain ⟨ahead, behind, heq⟩ := List.append_of_mem hmem
    exact Nat.eq_zero_of_not_pos (hnone ahead g behind heq)
  cases old with
  | nil =>
    have : isGroupCell x = true := hown x (by
      rw [List.nil_append] at hcells
      rw [← hcells, hx]
      simp)
    rw [hother] at this
    cases this
  | cons y old =>
    obtain ⟨rfl, hrest⟩ := List.cons_eq_cons.mp (hx.symm.trans (hcells.trans (List.cons_append ..)))
    rw [runsStand_cons_of_other hother] at hgone
    refine ⟨old, own, gone, groups, out, live, hcells'.trans hrest, hgroups'.trans hgroups,
      hspans'.trans hs, hids, hcols, hgone, hruns, hown, fun ahead g behind heq hg =>
        absurd hg (hnone ahead g behind (hgroups' ▸ heq)), ?_⟩
    rcases hcase with ⟨hgoneNil, herase, hsum⟩ | ⟨hout, -, front, z, hold, hz⟩
    · refine .inl ⟨hgoneNil, fun w hw => herase w (by simp [hw]), ?_⟩
      simp only [erased, List.map_cons, List.sum_cons] at hsum ⊢
      omega
    · cases front with
      | nil =>
        obtain ⟨rfl, rfl⟩ := List.cons_eq_cons.mp hold
        have hgoneNil : gone = [] := groups_nil_of_runs_nil hgone fun g hg =>
          htaken g (by rw [hgroups]; exact List.mem_append_left _ hg)
        refine .inl ⟨hgoneNil, nofun, ?_⟩
        have hsum : (groups.map (·.taken)).sum = 0 := List.sum_eq_zero fun n hn => by
          obtain ⟨g, hg, rfl⟩ := List.mem_map.mp hn
          exact hzero g hg
        rw [hout, hsum]
        exact Nat.zero_le _
      | cons w front =>
        obtain ⟨rfl, rfl⟩ := List.cons_eq_cons.mp hold
        exact .inr ⟨hout, hzero, front, z, rfl, hz⟩

/-- After a take of the front group's cell, only the front group has cells taken. -/
theorem onlyFrontTaken_advanced {c c' : Composer} (hfront : onlyFrontTaken c) {g : GroupRecord}
    {gs : List GroupRecord} (hgroups : c.groups = g :: gs) {k : Nat}
    (hgroups' : c'.groups = advanced k (g :: gs)) (hnext : g.taken + 1 < g.composed →
      ∃ x rest, c'.cells = x :: rest ∧ isGroupCell x = true) : onlyFrontTaken c' := by
  have hbehind : ∀ ahead q behind, gs = ahead ++ q :: behind → ¬ 0 < q.taken := by
    intro ahead q behind heq hq
    obtain ⟨hnil, -⟩ := hfront (g :: ahead) q behind (by rw [hgroups, heq]; rfl) hq
    cases hnil
  intro ahead q behind heq hq
  rw [hgroups', advanced] at heq
  split_ifs at heq with hmore
  · cases ahead with
    | nil => exact ⟨rfl, hnext hmore⟩
    | cons a ahead =>
      obtain ⟨-, heq⟩ := List.cons_eq_cons.mp heq
      exact absurd hq (hbehind ahead q behind heq)
  · exact absurd hq (hbehind ahead q behind heq)

theorem advanced_append (k : Nat) (g : GroupRecord) (gs hs : List GroupRecord) :
    advanced k (g :: (gs ++ hs)) = advanced k (g :: gs) ++ hs := by
  rw [advanced, advanced]
  split <;> rfl

/-- A group with more than one cell left has its next cell behind the front one. -/
theorem next_of_runs {g : GroupRecord} {gs : List GroupRecord} {x : Cell} {cs : List Cell}
    (h : runsStand (g :: gs) (x :: cs)) (hx : isGroupCell x = true) (hmore : g.taken + 1 < g.composed) :
    ∃ y rest, cs = y :: rest ∧ isGroupCell y = true := by
  obtain ⟨-, own, back, rfl, hlen, hown, -⟩ := (runsStand_cons_of_group hx (by omega) gs cs).mp h
  rw [untaken] at hlen
  obtain ⟨y, rest, rfl⟩ := List.exists_cons_of_length_pos (l := own) (by omega)
  exact ⟨y, rest ++ back, rfl, (hown y (by simp)).1⟩

/-- The front cell of a queue that begins with cells of no run is one of them. -/
theorem runs_head_nil {cs ds rest : List Cell} {x : Cell} (h : runsStand [] cs)
    (heq : cs ++ ds = x :: rest) (hx : isGroupCell x = true) : cs = [] := by
  cases cs with
  | nil => rfl
  | cons y more =>
    rw [List.cons_append] at heq
    obtain ⟨rfl, -⟩ := List.cons_eq_cons.mp heq
    have := h y (by simp)
    rw [hx] at this
    cases this

/-- A cell of a closed row's group leaves the front. -/
theorem rowStands_taken_gone {c c' : Composer} (hc : ComposerHolds c) {x : Cell} {old own : List Cell}
    {g : GroupRecord} {gone groups : List GroupRecord} {live : List Span} (hx : isGroupCell x = true)
    (hgroups : c.groups = g :: (gone ++ groups)) (hs : c.spans = live)
    (hids : groups.map (·.id) = live.map (·.id))
    (hcols : groups.Forall₂ (fun g sp => g.composed ≤ sp.columns) live)
    (hgone : runsStand (g :: gone) (x :: old)) (hruns : runsStand groups own)
    (hown : ∀ y ∈ own, isGroupCell y = true) (hfront : onlyFrontTaken c)
    (hzero : ∀ q ∈ groups, q.taken = 0)
    (hopen : ∃ front z, x :: old = front ++ [z] ∧ opens z) {k : Nat} (hcells' : c'.cells = old ++ own)
    (hgroups' : c'.groups = advanced k (g :: (gone ++ groups))) (hspans' : c'.spans = c.spans) :
    rowStands c' := by
  have hg : g.taken < g.composed := hc.taken g (by rw [hgroups]; simp)
  refine ⟨old, own, advanced k (g :: gone), groups, [], live, hcells', hgroups'.trans (advanced_append ..),
    hspans'.trans hs, hids, hcols, runsStand_advanced hgone hx hg k, hruns, hown,
    onlyFrontTaken_advanced hfront hgroups hgroups' fun hmore => ?_, .inr ⟨rfl, hzero, ?_⟩⟩
  · obtain ⟨y, rest, rfl, hy⟩ := next_of_runs hgone hx hmore
    exact ⟨y, rest ++ own, hcells'.trans (List.cons_append ..), hy⟩
  · obtain ⟨front, z, heq, hz⟩ := hopen
    cases front with
    | nil =>
      obtain ⟨rfl, -⟩ := List.cons_eq_cons.mp heq
      rw [not_group_of_opens hz] at hx
      cases hx
    | cons y front =>
      obtain ⟨-, rfl⟩ := List.cons_eq_cons.mp heq
      exact ⟨front, z, rfl, hz⟩

/-- A cell of the row's front group leaves the front. -/
theorem rowStands_taken_row {c c' : Composer} (hc : ComposerHolds c) {x : Cell} {own : List Cell}
    {g : GroupRecord} {gs : List GroupRecord} {out live : List Span} {sp : Span}
    (hx : isGroupCell x = true) (hgroups : c.groups = g :: gs) (hs : c.spans = out ++ sp :: live)
    (hids : (g :: gs).map (·.id) = (sp :: live).map (·.id))
    (hcols : (g :: gs).Forall₂ (fun g sp => g.composed ≤ sp.columns) (sp :: live))
    (hruns : runsStand (g :: gs) (x :: own)) (hown : ∀ y ∈ own, isGroupCell y = true)
    (hfront : onlyFrontTaken c) {k : Nat} (hcells' : c'.cells = own)
    (hgroups' : c'.groups = advanced k (g :: gs)) (hspans' : c'.spans = c.spans) : rowStands c' := by
  have hg : g.taken < g.composed := hc.taken g (by rw [hgroups]; simp)
  have hruns' := runsStand_advanced hruns hx hg k
  have hfront' : onlyFrontTaken c' := onlyFrontTaken_advanced hfront hgroups hgroups' fun hmore => by
    obtain ⟨y, rest, rfl, hy⟩ := next_of_runs hruns hx hmore
    exact ⟨y, rest, hcells', hy⟩
  have hzero : (gs.map (·.taken)).sum = 0 := List.sum_eq_zero fun n hn => by
    obtain ⟨q, hq, rfl⟩ := List.mem_map.mp hn
    obtain ⟨ahead, behind, heq⟩ := List.append_of_mem hq
    refine Nat.eq_zero_of_not_pos fun hpos => ?_
    obtain ⟨hnil, -⟩ := hfront (g :: ahead) q behind (by rw [hgroups, heq]; rfl) hpos
    cases hnil
  have hsum : (out.map (·.columns)).sum + sp.columns ≤ 40 := by
    have hcursor := hc.cursor
    have hwidth := hc.width
    have hrange := hc.layout_range
    rw [hs, List.map_append, List.sum_append, List.map_cons, List.sum_cons] at hcursor
    omega
  obtain ⟨hcol, hcols⟩ := List.forall₂_cons.mp hcols
  rw [List.map_cons, List.map_cons, List.cons_eq_cons] at hids
  obtain ⟨hid, hids⟩ := hids
  rw [advanced] at hgroups' hruns'
  split_ifs at hgroups' hruns' with hmore
  · refine ⟨[], own, [], advanceGroup k g :: gs, out, sp :: live, hcells', hgroups', hspans'.trans hs, ?_,
      .cons hcol hcols, nofun, hruns', hown, hfront', .inl ⟨rfl, nofun, ?_⟩⟩
    · rw [List.map_cons, List.map_cons, hids]
      exact congrArg (· :: _) hid
    · rw [List.map_cons, List.sum_cons, hzero]
      simp only [erased, List.map_nil, List.sum_nil, advanceGroup]
      omega
  · refine ⟨[], own, [], gs, out ++ [sp], live, hcells', hgroups', by rw [hspans', hs]; simp, hids, hcols,
      nofun, hruns', hown, hfront', .inl ⟨rfl, nofun, ?_⟩⟩
    rw [hzero, List.map_append, List.sum_append, List.map_singleton, List.sum_singleton]
    simp only [erased, List.map_nil, List.sum_nil]
    omega

theorem rowStands_taken_group {c c' : Composer} (h : rowStands c) (hc : ComposerHolds c) {x : Cell}
    {rest : List Cell} (hx : c.cells = x :: rest) (hgroup : isGroupCell x = true) {k : Nat}
    (hcells' : c'.cells = rest) (hgroups' : c'.groups = advanced k c.groups) (hspans' : c'.spans = c.spans) :
    rowStands c' := by
  obtain ⟨old, own, gone, groups, out, live, hcells, hgroups, hs, hids, hcols, hgone, hruns, hown,
    hfront, hcase⟩ := h
  rw [hgroups] at hgroups'
  cases gone with
  | nil =>
    obtain rfl : old = [] := runs_head_nil hgone (hcells.symm.trans hx) hgroup
    obtain rfl : own = x :: rest := hcells.symm.trans hx
    cases groups with
    | nil =>
      have := hruns x (by simp)
      rw [hgroup] at this
      cases this
    | cons g gs =>
      cases live with
      | nil => cases hids
      | cons sp live =>
        exact rowStands_taken_row hc hgroup hgroups hs hids hcols hruns
          (fun y hy => hown y (by simp [hy])) hfront hcells' hgroups' hspans'
  | cons g gone =>
    obtain ⟨hout, hzero, hopen⟩ := hcase.resolve_left fun ⟨hnil, _⟩ => by cases hnil
    cases old with
    | nil =>
      obtain ⟨front, z, heq, -⟩ := hopen
      cases front <;> cases heq
    | cons y old =>
      obtain ⟨rfl, hrest⟩ := List.cons_eq_cons.mp (hx.symm.trans (hcells.trans (List.cons_append ..)))
      rw [hout, List.nil_append] at hs
      exact rowStands_taken_gone hc hgroup hgroups hs hids hcols hgone hruns hown hfront hzero hopen
        (hcells'.trans hrest) hgroups' hspans'

theorem rowStands_runs {c : Composer} (h : rowStands c) : runsStand c.groups c.cells := by
  obtain ⟨old, own, gone, groups, out, live, hcells, hgroups, -, -, -, hgone, hruns, -⟩ := h
  rw [hcells, hgroups]
  exact runsStand_append hgone hruns

theorem advanced_groups {gs : List GroupRecord} {x : Cell} {cs : List Cell} (hruns : runsStand gs (x :: cs))
    (hx : isGroupCell x = true) (htaken : ∀ g ∈ gs, g.taken < g.composed)
    (hgs : ∀ g ∈ gs, g.composed ≤ 33 ∧ g.columnsTaken = g.taken) :
    ∀ g ∈ advanced (cellColumns x) gs, g.composed ≤ 33 ∧ g.columnsTaken = g.taken := by
  cases gs with
  | nil => exact nofun
  | cons g rest =>
    have hmarker := ((runsStand_cons_of_group hx (htaken g (by simp)) rest cs).mp hruns).1
    obtain ⟨hcomposed, hcolumns⟩ := hgs g (by simp)
    have hrest : ∀ q ∈ rest, q.composed ≤ 33 ∧ q.columnsTaken = q.taken := fun q hq => hgs q (by simp [hq])
    rw [advanced]
    split
    · next hmore =>
      have hone : cellColumns x = 1 := by
        cases x with
        | char _ => rfl
        | marker => have := hmarker rfl; omega
        | _ => cases hx
      intro q hq
      rcases List.mem_cons.mp hq with rfl | hq
      · refine ⟨hcomposed, ?_⟩
        show g.columnsTaken + cellColumns x = g.taken + 1
        omega
      · exact hrest q hq
    · exact hrest

theorem rowOrdered_taken {c c' : Composer} (h : RowOrdered c) (hc : ComposerHolds c) {x : Cell}
    {rest : List Cell} (hx : c.cells = x :: rest) (hcells' : c'.cells = rest)
    (hgroups' : c'.groups = if isGroupCell x then advanced (cellColumns x) c.groups else c.groups)
    (hspans' : c'.spans = c.spans) : RowOrdered c' := by
  have hroom := h.room
  rw [hx, List.length_cons] at hroom
  refine ⟨by rw [hcells']; omega, fun y hy => h.cells y ?_, ?_, ?_, hspans' ▸ h.starts⟩
  · rw [hx]
    exact List.mem_cons_of_mem _ (hcells' ▸ hy)
  · rw [hgroups']
    split
    · next hgroup => exact advanced_groups (hx ▸ rowStands_runs h.row) hgroup hc.taken h.groups
    · exact h.groups
  · by_cases hgroup : isGroupCell x = true
    · rw [if_pos hgroup] at hgroups'
      exact rowStands_taken_group h.row hc hx hgroup hcells' hgroups' hspans'
    · rw [if_neg hgroup] at hgroups'
      exact rowStands_taken_other h.row hc.taken hx (by simpa using hgroup) hcells' hgroups' hspans'

end Sys2Proof.Moves
end

section
/-! SUPPORT. Every move keeps how cell queue, group records and spans stand to one another. -/

namespace Sys2Proof.Moves

open Sys2Proof.Machine Sys2Proof.Expect Sys2Proof.Safety Sys2Proof.ProgrammeTime
  Sys2Proof.FloorAndHandoff Sys2Proof.Effects Sys2Proof.Directives Sys2Proof.Schedules
  Sys2Proof.FrameEvents Sys2Proof.Records Sys2Proof.Corrections Sys2Proof.Emissions
  Sys2Proof.Images

/-! ### Rows opened -/

/-- A row closed, and a cell that opens a new one at the tail. -/
theorem rowOrdered_reopened {c c' : Composer} (h : RowOrdered c) {front : List Cell} {x : Cell}
    (hfront : ∀ y ∈ front, isGroupCell y = false) (hx : opens x)
    (hrange : ∀ y ∈ front ++ [x], cellInRange y) (hroom : c.cells.length + (front ++ [x]).length ≤ 64)
    (hcells : c'.cells = c.cells ++ (front ++ [x])) (hgroups : c'.groups = c.groups)
    (hspans : c'.spans = []) : RowOrdered c' where
  room := by rwa [hcells, List.length_append]
  cells y hy := by
    rw [hcells] at hy
    exact (List.mem_append.mp hy).elim (h.cells y) (hrange y)
  groups := hgroups ▸ h.groups
  row := rowStands_reopened h.row hfront hx hcells hgroups hspans
  starts left sp right heq := by
    rw [hspans] at heq
    cases left <;> cases heq

/-- A window with no group and no span, whose last cell opens a row. -/
theorem rowOrdered_of_empty {c : Composer} {front : List Cell} {x : Cell}
    (hfront : ∀ y ∈ front, isGroupCell y = false) (hx : opens x)
    (hrange : ∀ y ∈ front ++ [x], cellInRange y) (hroom : (front ++ [x]).length ≤ 64)
    (hcells : c.cells = front ++ [x]) (hgroups : c.groups = []) (hspans : c.spans = []) :
    RowOrdered c where
  room := hcells ▸ hroom
  cells := hcells ▸ hrange
  groups := by simp [hgroups]
  row := rowStands_of_empty hfront hx hcells hgroups hspans
  starts left sp right heq := by
    rw [hspans] at heq
    cases left <;> cases heq

theorem placePair_inRange {l : Layout} (h : layoutValid l = true) : ∀ y ∈ placePair l, cellInRange y := by
  have hlayout := (Directives.layoutValid_eq l.base l.depth l.left l.width).symm.trans h
  rw [validLayout, decide_eq_true_eq] at hlayout
  intro y hy
  rcases List.mem_pair.mp hy with rfl | rfl
  · exact ⟨by omega, by omega, by omega, by omega⟩
  · exact ⟨by omega, by omega, by omega⟩

theorem lastPlaceOf_length (cs : List Cell) : (lastPlaceOf cs).length ≤ 2 := by
  induction cs with
  | nil => exact Nat.zero_le _
  | cons c rest ih =>
    rw [lastPlaceOf.eq_def]
    dsimp only
    split
    · cases rest with
      | nil => exact Nat.le_succ 1
      | cons d more => dsimp only; split <;> simp
    · exact ih

theorem rowOrdered_laid {s : State} (h : RowOrdered s.composer) {l : Layout} (hl : layoutValid l = true)
    (hroom : s.composer.cells.length ≤ 62) : RowOrdered (laid l s).composer :=
  rowOrdered_reopened h (front := [.placeRow l.base l.depth]) (x := .placeCol l.left l.width)
    (by simp [isGroupCell]) (.inr (.inr ⟨_, _, rfl⟩)) (placePair_inRange hl)
    (by simp only [List.length_append, List.length_singleton]; omega) rfl rfl rfl

theorem rowOrdered_cleared {s : State} (h : RowOrdered s.composer) (hids : (groupIdsOf s).Nodup) :
    RowOrdered (clearWindow s).composer := by
  have hmem : ∀ y ∈ keptPlace (s.composer.cells.filter fun c => !isGroupCell c),
      y ∈ s.composer.cells ∧ isGroupCell y = false := fun y hy => by
    simpa using List.mem_filter.mp (keptPlace_subset _ hy)
  have hlen : (keptPlace (s.composer.cells.filter fun c => !isGroupCell c)).length ≤ 2 :=
    lastPlaceOf_length _
  rw [clearWindow_eq hids]
  refine rowOrdered_of_empty (x := .blank) (fun y hy => (hmem y hy).2) (.inr (.inl rfl)) (fun y hy => ?_)
    (by rw [List.length_append, List.length_singleton]; omega) rfl rfl rfl
  rcases List.mem_append.mp hy with hy | hy
  · exact h.cells y (hmem y hy).1
  · rw [List.mem_singleton.mp hy]
    trivial

/-- The window after RESTART, or after the pin, with its PLACE pair. -/
theorem rowOrdered_placed {c : Composer} {l : Layout} (hl : layoutValid l = true)
    (hcells : c.cells = placePair l) (hgroups : c.groups = []) (hspans : c.spans = []) : RowOrdered c :=
  rowOrdered_of_empty (front := [.placeRow l.base l.depth]) (x := .placeCol l.left l.width)
    (by simp [isGroupCell]) (.inr (.inr ⟨_, _, rfl⟩)) (placePair_inRange hl) (Nat.le_add_left 2 62) hcells hgroups
    hspans

/-! ### Releases (R80 to R85) -/

/-- What a release composes: at most 33 cells in range, and a MARKER alone (R82, R84). -/
theorem composition_holds {k : Token} (h : textHolds k = true) (cursor width : Nat) :
    let cs := (composition k cursor width).2
    (∀ x ∈ cs, cellInRange x) ∧ cs.length ≤ 33 ∧ (.marker ∈ cs → cs.length = 1) := by
  obtain ⟨⟨hlen, hshown⟩, -⟩ := textHolds_iff_record h
  cases hkind : k.kind with
  | word =>
    have hchars : ∀ x ∈ (k.text.take width).map Cell.char, cellInRange x ∧ x ≠ .marker := by
      intro x hx
      obtain ⟨b, hb, rfl⟩ := List.mem_map.mp hx
      exact ⟨hshown b (List.mem_of_mem_take hb), nofun⟩
    have htake : ((k.text.take width).map Cell.char).length ≤ 32 := by
      rw [List.length_map, List.length_take]
      omega
    simp only [composition, hkind]
    have hsp : (if 0 < cursor ∧ k.attach = false then 1 else 0) ≤ 1 := by split <;> omega
    generalize (if 0 < cursor ∧ k.attach = false then 1 else 0) = sp at *
    split
    · exact ⟨fun x hx => (hchars x hx).1, htake.trans (by decide), fun hm => absurd rfl (hchars _ hm).2⟩
    · have hall : ∀ x ∈ List.replicate sp (Cell.char 0x20) ++ (k.text.take width).map Cell.char,
          cellInRange x ∧ x ≠ .marker := by
        intro x hx
        rcases List.mem_append.mp hx with hx | hx
        · rw [List.eq_of_mem_replicate hx]
          exact ⟨rfl, nofun⟩
        · exact hchars x hx
      refine ⟨fun x hx => (hall x hx).1, ?_, fun hm => absurd rfl (hall _ hm).2⟩
      rw [List.length_append, List.length_replicate]
      omega
  | speaker =>
    simp only [composition, hkind]
    exact ⟨fun x hx => by rw [List.mem_singleton.mp hx]; trivial, by decide, fun _ => rfl⟩
  | paragraph =>
    simp only [composition, hkind]
    exact ⟨nofun, by decide, nofun⟩

theorem rowOrdered_rolled {c : Composer} (h : RowOrdered c) (hroom : c.cells.length < 64) :
    RowOrdered (rolled c) :=
  rowOrdered_reopened h (front := []) (x := .roll) nofun (.inl rfl)
    (fun y hy => by rw [List.mem_singleton.mp hy]; trivial) hroom rfl rfl rfl

theorem rowOrdered_joined {c : Composer} (h : RowOrdered c) (hc : ComposerHolds c) (k : Token)
    {cs : List Cell} (hcs : ∀ x ∈ cs, isGroupCell x = true) (hrange : ∀ x ∈ cs, cellInRange x)
    (hlen : cs.length ≤ 33) (hmarker : .marker ∈ cs → cs.length = 1)
    (hroom : c.cells.length + cs.length ≤ 64) : RowOrdered (joined k cs c) where
  room := by rwa [joined, List.length_append]
  cells y hy := (List.mem_append.mp hy).elim (h.cells y) (hrange y)
  groups g hg := by
    rcases List.mem_append.mp hg with hg | hg
    · exact h.groups g hg
    · split at hg
      · cases hg
      · rw [List.mem_singleton.mp hg]
        exact ⟨hlen, rfl⟩
  row := rowStands_joined h.row k hcs hmarker
  starts left sp right heq := by
    change c.spans ++ _ = _ at heq
    split at heq
    · rw [List.append_nil] at heq
      exact h.starts left sp right heq
    · rcases List.eq_nil_or_concat' right with rfl | ⟨more, last, rfl⟩
      · obtain ⟨rfl, hsp⟩ := List.append_inj' heq rfl
        obtain rfl := (List.cons_eq_cons.mp hsp).1
        exact hc.cursor
      · rw [← List.cons_append, ← List.append_assoc] at heq
        exact h.starts left sp more (List.append_inj' heq rfl).1

theorem rowOrdered_released {s : State} (h : RowOrdered s.composer) (hc : ComposerHolds s.composer)
    {k : Token} (htext : textHolds k = true) (hfits : groupFits k s = true) (rest : List Token) :
    RowOrdered (released k rest s).composer := by
  have hcells : ∀ x ∈ (composition k s.composer.cursor s.composer.layout.width).2,
      isGroupCell x = true := fun x hx => isGroupCell_of_mem_composition hx
  obtain ⟨hrange, hlen, hmarker⟩ := composition_holds htext s.composer.cursor s.composer.layout.width
  rw [groupFits_iff] at hfits
  rw [released_composer]
  dsimp only at *
  split
  · next hroll =>
    rw [hroll, Bool.toNat_true] at hfits
    have hlength : (rolled s.composer).cells.length = s.composer.cells.length + 1 := List.length_append ..
    exact rowOrdered_joined (rowOrdered_rolled h (by omega)) hc.rolled k hcells hrange hlen hmarker
      (by omega)
  · exact rowOrdered_joined h hc k hcells hrange hlen hmarker (by omega)

/-! ### Every move -/

/-- Every move keeps the row composer in order. -/
theorem Move.row {s₀ s t : State} (h : Move s₀ s t) (hline : LineHolds (lineOf s))
    (hs : RowOrdered s.composer)
    (hload : ∀ S, Loads s₀ s S → RowOrdered (loadSections s.image.words S s).composer) :
    RowOrdered t.composer := by
  have hc : ComposerHolds s.composer := hline.composer
  have hkeep {u : State} (heq : u.composer = s.composer) : RowOrdered u.composer := heq ▸ hs
  cases h with
  | aside h => exact hkeep (congrArg Line.composer h.line)
  | queued x => exact hkeep (by cases x <;> rfl)
  | shed x => exact hkeep (shed_rest x s).2.1
  | entered x => exact hkeep (by cases x <;> rfl)
  | passed x => exact hkeep (by cases x <;> rfl)
  | discarded => exact hs
  | released k rest hhead hfits =>
    have hk : k ∈ s.schedule := hhead ▸ List.mem_cons_self
    exact rowOrdered_released hs hc (hline.scheduleText k hk) hfits rest
  | flushed x => exact hkeep (by cases x <;> rfl)
  | laid l hvalid hroom => exact rowOrdered_laid hs hvalid hroom
  | cleared => exact rowOrdered_cleared hs hc.groupIds
  | forgotten x _ rest => exact hkeep (setStack_rest x rest s).2
  | recalled x => exact hkeep (by cases x <;> rfl)
  | unscheduled x => exact hkeep (by cases x <;> rfl)
  | undone x en rest left sp _ _ hspans =>
    have hcomposer := (setStack_rest x rest s).2
    exact rowOrdered_undone (hcomposer ▸ hs) (hcomposer ▸ hc) (hcomposer ▸ hspans)
  | taken c rest hcells =>
    have hcomposer := taken_composer hcells
    exact rowOrdered_taken hs hc hcells (by rw [hcomposer]) (by rw [hcomposer]) (by rw [hcomposer])
  | restarted => exact rowOrdered_placed hc.layout rfl rfl rfl
  | reset => exact rowOrdered_placed (l := Composer.reset.layout) (by decide) rfl rfl rfl
  | loaded S hhigh htime himage hfill hvalid => exact hload S ⟨hhigh, htime, himage, hfill, hvalid⟩

end Sys2Proof.Moves
end

section
/-! SUPPORT. A state in order, part by part; what its image must find in order; the image loaded. The
part after reset and every step, settled. -/

namespace Sys2Proof.Moves

open Sys2Proof.Machine Sys2Proof.Expect Sys2Proof.Safety Sys2Proof.ProgrammeTime
  Sys2Proof.FloorAndHandoff Sys2Proof.Effects Sys2Proof.Directives Sys2Proof.Schedules
  Sys2Proof.FrameEvents Sys2Proof.Records Sys2Proof.Corrections Sys2Proof.Emissions
  Sys2Proof.Images

/-! ### A state in order -/

/-- The schedule in speech order up to S_tail (R59, R70). -/
def scheduleOrdered (l : Line) : Prop :=
  (l.schedule.map (·.speech)).Pairwise (fun x y => precedes y x = false) ∧
  ∀ k ∈ l.schedule, ∃ tail, l.tail = some tail ∧ precedes tail k.speech = false

/-- What `ordered` says, part by part. -/
structure Ordered (s : State) : Prop where
  settings : SettingsHold s
  floor : FloorHolds s
  pipeline : PipelineHolds s
  row : RowOrdered s.composer
  tags : TagsFit s
  schedule : scheduleOrdered (lineOf s)
  cueTargets : ∀ q ∈ s.cues, q.target < 4294967296

theorem Ordered.line {s : State} (h : Ordered s) : LineHolds (lineOf s) :=
  ((pipelineHolds_iff s).mp h.pipeline).1

theorem ordered_iff (s : State) : ordered s ↔ Ordered s := by
  constructor
  · rintro ⟨hsettings, hfloor, hpipeline, hroom, hcells, hgroups, hrow, htags, horder, htail, hstarts, hcues⟩
    exact ⟨hsettings, hfloor, hpipeline, ⟨hroom, hcells, hgroups, hrow, hstarts⟩,
      (tagsFit_iff ((pipelineHolds_iff s).mp hpipeline).1).mpr htags, ⟨horder, htail⟩, hcues⟩
  · intro h
    exact ⟨h.settings, h.floor, h.pipeline, h.row.room, h.row.cells, h.row.groups, h.row.row,
      (tagsFit_iff h.line).mp h.tags, h.schedule.1, h.schedule.2, h.row.starts, h.cueTargets⟩

/-- With the speech counts near enough to compare, the schedule's order is what every move keeps. -/
theorem speechHolds_iff (s : State) :
    SpeechHolds s.timebase.e (lineOf s) ↔ timely s ∧ scheduleOrdered (lineOf s) := by
  have hnear : timely s ↔ _ := near_speeches_iff s.timebase.e s
  rw [hnear]
  constructor
  · exact fun h => ⟨⟨h.queues, h.timed, h.tailNear, h.lastNear⟩, h.order, h.tail⟩
  · rintro ⟨⟨hqueues, htimed, htail, hlast⟩, horder, hlimit⟩
    exact ⟨hqueues, htimed, htail, hlast, horder, hlimit⟩

/-! ### What a snapshot's image must find in order (R173) -/

theorem tailStands_of_row {c : Composer} (h : RowOrdered c) (hc : ComposerHolds c) : tailStands c := by
  intro left sp hspans
  obtain ⟨old, own, gone, groups, out, live, hcells, hgroups, hs, hids, -, -, hruns, hown, -, hcase⟩ := h.row
  rcases eq_concat_of_append_concat (hs.symm.trans hspans) with ⟨rfl, rfl⟩ | ⟨more, rfl, -⟩
  · obtain rfl : groups = [] := by simpa using hids
    obtain rfl : own = [] := eq_nil_of_both hruns hown
    obtain ⟨rfl, herase, hsum⟩ : gone = [] ∧ (∀ x ∈ old, ∃ k, x = .erase k) ∧
        erased old + ((left ++ [sp]).map (·.columns)).sum + (([] : List GroupRecord).map (·.taken)).sum ≤ 40 :=
      hcase.resolve_right fun ⟨hnil, _⟩ => by simp at hnil
    rw [List.append_nil] at hcells
    have hlen := length_le_erased (cs := old) herase (hcells ▸ h.cells)
    have hpos := hc.columns sp (by simp [hspans])
    rw [List.map_append, List.sum_append, List.map_singleton, List.sum_singleton] at hsum
    refine ⟨fun hmem => ?_, fun _ => ⟨by rw [hcells]; omega, hcells ▸ herase⟩⟩
    rw [hgroups] at hmem
    cases hmem
  · rcases List.eq_nil_or_concat' groups with rfl | ⟨gs, g, rfl⟩
    · simp at hids
    rw [List.map_append, List.map_append] at hids
    obtain ⟨-, hid⟩ := List.append_inj' hids rfl
    have hid : g.id = sp.id := by simpa using hid
    rw [← List.append_assoc] at hgroups
    obtain ⟨ahead, run, rfl, -, hlen⟩ := runsStand_concat hruns hown
    have hg := hc.taken g (by simp [hgroups])
    rcases List.eq_nil_or_concat' run with rfl | ⟨front, last, rfl⟩
    · rw [List.length_nil, untaken] at hlen
      omega
    · refine ⟨fun _ => ⟨⟨gone ++ gs, g, hgroups, hid⟩, old ++ ahead ++ front, last, by rw [hcells]; simp,
        hown last (by simp)⟩, fun hmem => absurd ?_ hmem⟩
      rw [hgroups, ← hid]
      simp

theorem inOrder_of_ordered {s : State} (h : Ordered s) : inOrder s := by
  refine ⟨h.row.room, h.row.cells, fun g hg => (h.row.groups g hg).1, rowStands_runs h.row.row,
    tailStands_of_row h.row h.line.composer, (tagsFit_iff h.line).mp h.tags, fun front t u back heq => ?_,
    fun front t heq => h.schedule.2 t ?_, h.row.starts, h.cueTargets⟩
  · have horder := h.schedule.1
    rw [show (lineOf s).schedule = front ++ t :: u :: back from heq, List.map_append,
      List.pairwise_append] at horder
    exact (List.pairwise_cons.mp horder.2.1).1 u.speech (by simp)
  · rw [show (lineOf s).schedule = front ++ [t] from heq]
    simp

theorem Ordered.loadable {s : State} (h : Ordered s) : Loadable s :=
  ⟨h.settings, h.floor, h.pipeline, inOrder_of_ordered h⟩

/-! ### The image of a state in order loaded (R174) -/

variable {i s : State}

theorem near_moved {a b x : Frame} (h : near a x) : near b (x + (b - a)) := by
  have : b - (x + (b - a)) = a - x := by bv_omega
  rwa [near, this]

theorem speechHolds_loaded (h : SpeechHolds i.timebase.e (lineOf i)) :
    SpeechHolds s.timebase.e (lineOf (loaded i s)) where
  queues x k hk := by
    have hqueue : (lineOf (loaded i s)).queue x =
        ((lineOf i).queue x).map (moved (s.timebase.e - i.timebase.e)) := by cases x <;> rfl
    rw [hqueue] at hk
    obtain ⟨q, hq, rfl⟩ := List.mem_map.mp hk
    exact near_moved (h.queues x q hq)
  timed k hk := by
    obtain ⟨q, hq, rfl⟩ := List.mem_map.mp hk
    exact near_moved (h.timed q hq)
  tailNear x hx := by
    obtain ⟨y, hy, rfl⟩ := Option.map_eq_some_iff.mp hx
    exact near_moved (h.tailNear y hy)
  lastNear x y hy := by
    have hlast : (lineOf (loaded i s)).last x =
        ((lineOf i).last x).map (· + (s.timebase.e - i.timebase.e)) := by cases x <;> rfl
    rw [hlast] at hy
    obtain ⟨z, hz, rfl⟩ := Option.map_eq_some_iff.mp hy
    exact near_moved (h.lastNear x z hz)
  order := by
    have hspeech : (lineOf (loaded i s)).schedule.map (·.speech) =
        ((lineOf i).schedule.map (·.speech)).map (· + (s.timebase.e - i.timebase.e)) := by
      simp only [lineOf, loaded, List.map_map]
      rfl
    rw [hspeech, List.pairwise_map]
    exact h.order.imp fun {a b} hab => (precedes_add b a _).trans hab
  tail k hk := by
    obtain ⟨q, hq, rfl⟩ := List.mem_map.mp hk
    obtain ⟨tail, hsome, hprecedes⟩ := h.tail q hq
    exact ⟨_, Option.map_eq_some_iff.mpr ⟨tail, hsome, rfl⟩, (precedes_add tail q.speech _).trans hprecedes⟩

theorem rowStands_bared {c : Composer} (h : rowStands c) :
    rowStands { c with groups := c.groups.map bared } := by
  obtain ⟨old, own, gone, groups, out, live, hcells, hgroups, hs, hids, hcols, hgone, hruns, hown,
    hfront, hcase⟩ := h
  have htaken : (groups.map bared).map (·.taken) = groups.map (·.taken) := by
    rw [List.map_map]
    rfl
  refine ⟨old, own, gone.map bared, groups.map bared, out, live, hcells, ?_, hs, ?_, ?_, runsStand_bared hgone,
    runsStand_bared hruns, hown, fun ahead g behind heq hg => ?_, ?_⟩
  · rw [← List.map_append, hgroups]
  · rw [← hids, List.map_map]
    rfl
  · rw [List.forall₂_map_left_iff]
    exact hcols
  · obtain ⟨l₁, l₂, hl, rfl, h₂⟩ := List.map_eq_append_iff.mp heq
    obtain ⟨g', l₃, rfl, rfl, -⟩ := List.map_eq_cons_iff.mp h₂
    obtain ⟨rfl, x, rest, hx, hgroup⟩ := hfront l₁ g' l₃ hl hg
    exact ⟨rfl, x, rest, hx, hgroup⟩
  · refine hcase.imp ?_ ?_
    · rintro ⟨rfl, herase, hsum⟩
      exact ⟨rfl, herase, by rwa [htaken]⟩
    · rintro ⟨hout, hzero, hopen⟩
      exact ⟨hout, List.forall_mem_map.mpr hzero, hopen⟩

theorem rowOrdered_loaded (h : RowOrdered i.composer) : RowOrdered (loaded i s).composer where
  room := h.room
  cells := h.cells
  groups := List.forall_mem_map.mpr fun g hg => ⟨(h.groups g hg).1, rfl⟩
  row := rowStands_bared h.row
  starts := h.starts

theorem placeOf_loaded (id : TokenId) : placeOf (loaded i s) id = placeOf i id := by
  have hids : ∀ (shift : Frame) (ts : List Token), (ts.map (moved shift)).map (·.id) = ts.map (·.id) :=
    fun shift ts => by
      rw [List.map_map]
      rfl
  have hqueue : (laneOf id.lane (loaded i s)).queue.map (·.id) = (laneOf id.lane i).queue.map (·.id) := by
    cases id.lane <;> exact hids _ _
  have hschedule : (loaded i s).schedule.map (·.id) = i.schedule.map (·.id) := hids _ _
  have hgroup : groupTaken (loaded i s).composer id = groupTaken i.composer id := by
    show (groupOf id (i.composer.groups.map bared)).map _ = _
    rw [groupTaken, groupOf, groupOf, List.find?_map, Option.map_map]
    rfl
  simp only [placeOf, hqueue, hschedule, hgroup]
  rfl

theorem tagsFit_loaded (h : TagsFit i) : TagsFit (loaded i s) := fun x en hen => by
  rw [placeOf_loaded]
  exact h x en (by cases x <;> exact hen)

/-- A restore commit that would be accepted shows the words collected to be the image of a state in
order. -/
theorem exists_image_of_fillFits (h : fillFits s) (hlow : s.resetLow = false)
    (hfill : s.image.state = .filling) {S : ImageSections}
    (hvalid : validImage s.timebase.epoch s.image = some S) :
    ∃ i, Ordered i ∧ timely i ∧ s.image.words = image i := by
  have hcommit : commitRestore s = (admissionRun (loadSections s.image.words S s), .done) := by
    rw [commitRestore, if_neg (not_not_intro hfill), hvalid]
  obtain ⟨i, hi, htimely, hwords⟩ := h hlow hfill 0 _ (exec_restoreCommit 0 hlow hcommit) rfl
  exact ⟨i, (ordered_iff i).mp hi, htimely, hwords⟩

/-- A load in a command that began with such words loads a state in order. -/
theorem Loads.eq_loaded {s₀ u : State} {S : ImageSections} (h : Loads s₀ u S) (hfit : fillFits s₀) :
    ∃ i, Ordered i ∧ timely i ∧ loadSections u.image.words S u = loaded i u := by
  obtain ⟨i, hi, htimely, hwords⟩ := exists_image_of_fillFits hfit h.high (h.image ▸ h.fill)
    (h.time ▸ h.image ▸ h.valid)
  have hwords : u.image.words = Expect.image i := h.image ▸ hwords
  obtain ⟨⟨-, -, hfull, -⟩, -⟩ := (validImage_eq_some_iff _ _ _).mp h.valid
  have hsections := (validImage_image hi.loadable hwords hfull u.timebase.epoch).symm.trans h.valid
  refine ⟨i, hi, htimely, ?_⟩
  rw [← Option.some.inj hsections, hwords, loadSections_image hi.loadable u]

/-! ### The part after reset, and every step -/

theorem ordered_atRelease (span : BitVec 5) (rate : BitVec 2) : Ordered (State.atRelease span rate) := by
  obtain ⟨hsettings, -, hfloor, -⟩ := ranges_atRelease span rate
  exact ⟨hsettings, hfloor, pipelineHolds_atRelease span rate,
    rowOrdered_placed (l := Composer.reset.layout) (by decide) rfl rfl rfl,
    tagsFit_of_empty fun x => by cases x <;> rfl, ⟨List.Pairwise.nil, nofun⟩, nofun⟩

theorem invariants_atRelease (span : BitVec 5) (rate : BitVec 2) :
    let s := State.atRelease span rate
    SramHolds s ∧ SettingsHold s ∧ TimebaseHolds s ∧ FloorHolds s ∧ ServiceHolds s ∧
      PipelineHolds s ∧ ordered s := by
  obtain ⟨hsettings, htimebase, hfloor, hservice⟩ := ranges_atRelease span rate
  have hsram : SramHolds (State.atRelease 0 0) := by decide
  exact ⟨hsram, hsettings, htimebase, hfloor, hservice, pipelineHolds_atRelease span rate,
    (ordered_iff _).mpr (ordered_atRelease span rate)⟩

/-- What a course of moves keeps of a state in order, in a command that began at the moment `e`. -/
structure Underway (e : Frame) (s : State) : Prop where
  ordered : Ordered s
  speech : SpeechHolds e (lineOf s)

theorem Move.underway {s₀ t : State} (h : Move s₀ s t) (hstart : PipelineHolds s₀) (hfit : fillFits s₀)
    (hs : Underway s₀.timebase.e s) : Underway s₀.timebase.e t := by
  have ho := hs.ordered
  have hline := ho.line
  have hpipeline := h.pipeline hstart ho.pipeline
  have hline' := ((pipelineHolds_iff t).mp hpipeline).1
  have hspeech : SpeechHolds s₀.timebase.e (lineOf t) :=
    h.speech hline ho.settings hs.speech fun S hS => by
      obtain ⟨i, hi, htimely, heq⟩ := hS.eq_loaded hfit
      rw [heq, ← hS.time]
      exact speechHolds_loaded ((speechHolds_iff i).mpr ⟨htimely, hi.schedule⟩)
  have htags : TagsFit t := h.tags hline hline' ho.tags fun S hS => by
    obtain ⟨i, hi, -, heq⟩ := hS.eq_loaded hfit
    rw [heq]
    exact tagsFit_loaded hi.tags
  have hrow : RowOrdered t.composer := h.row hline ho.row fun S hS => by
    obtain ⟨i, hi, -, heq⟩ := hS.eq_loaded hfit
    rw [heq]
    exact rowOrdered_loaded hi.row
  exact ⟨⟨h.ranges.settings ho.settings, h.ranges.floor ho.floor, hpipeline, hrow, htags,
    ⟨hspeech.order, hspeech.tail⟩, h.ranges.cueTargets ho.cueTargets⟩, hspeech⟩

theorem Course.underway {s₀ t : State} (h : Course s₀ s₀ t) (hs : Underway s₀.timebase.e s₀)
    (hfit : fillFits s₀) : Underway s₀.timebase.e t := by
  induction h with
  | refl => exact hs
  | tail _ huv ih => exact huv.underway hs.ordered.pipeline hfit ih

/-- The commands that wait bear on none of this. -/
theorem fillFits_of_pending {s : State} (h : fillFits s) (rest : List Instr) :
    fillFits { s with pending := rest } := by
  intro hlow hfill tag u hexec hdone
  cases hvalid : validImage s.timebase.epoch s.image with
  | some S =>
    obtain ⟨i, hi, htimely, hwords⟩ := exists_image_of_fillFits h hlow hfill hvalid
    exact ⟨i, (ordered_iff i).mpr hi, htimely, hwords⟩
  | none =>
    have hcommit : commitRestore { s with pending := rest } =
        ({ s with pending := rest, image := ImageBuffer.clear }, .badImage) := by
      rw [commitRestore, if_neg (not_not_intro hfill), hvalid]
    obtain rfl := eq_of_done ((exec_restoreCommit tag hlow hcommit).symm.trans hexec)
    cases hdone

theorem ordered_step {s t : State} (hs : Ordered s) (htimely : timely s) (hfit : fillFits s)
    (h : step s = .next t) : Ordered t := by
  unfold step at h
  split at h
  · cases h
    exact hs
  · next c rest _ =>
    have hstart : Underway s.timebase.e { s with pending := rest } :=
      ⟨⟨hs.settings, hs.floor, hs.pipeline, hs.row, hs.tags, hs.schedule, hs.cueTargets⟩,
        (speechHolds_iff s).mpr ⟨htimely, hs.schedule⟩⟩
    exact ((course_exec h).underway hstart (fillFits_of_pending hfit rest)).ordered

/-- Settles O60: the parts of a state in order hold at release, imply what a snapshot's image must
find, and are kept move by move. -/
theorem resetMeetsTheInvariants : Obligations.ResetMeetsTheInvariants := by
  refine ⟨invariants_atRelease, invariants_atRelease _ _, fun s hs => ?_,
    fun s t hs htimely hfit h => ?_⟩
  · have hs := (ordered_iff s).mp hs
    exact ⟨hs.settings, hs.floor, hs.pipeline, inOrder_of_ordered hs⟩
  · exact (ordered_iff t).mpr (ordered_step ((ordered_iff s).mp hs) htimely hfit h)

end Sys2Proof.Moves
end
